-- ==== Sys2Proof/Word.lean ====
section
/-! DEFINITION. The plain types everything else is written in: bytes of the three lines, texts, and tables keyed by a number. -/

namespace Sys2Proof

/-- One byte of a serial line (R169, R184). -/
abbrev Byte := BitVec 8

/-- A run of characters, one byte each (00_scope, Quantities: Text). -/
abbrev Text := List Byte

/-- A table keyed by a number (ride, board address, pass number, token), in rising order of key.
The operations on tables and the canonical form are in Machine/Ops.lean. -/
abbrev Table (α : Type) := List (Nat × α)

end Sys2Proof
end

