-- ==== Sys2Proof/Syntax.lean ====
section
/-! DEFINITION. The commands: one constructor of Instr per row of spec/opcode_table.json, and the requests that
frames of the operations link carry (R173 to R184). -/

namespace Sys2Proof

/-- The park parameter set (R12): the values CONFPARK carries, and the set as stored. -/
structure Params where
  k : Nat
  l : Nat
  step : Nat
  postMax : Nat
  hyst : Nat
  jump : Nat
  staleHold : Nat
  silencePolls : Nat
  lead : Nat
  gEarly : Nat
  gLate : Nat
  a : Nat
  d : Nat
  slotLow : Nat
  passInterval : Nat
  blinkPasses : Nat
  blinkDuty : Nat
  text1 : Text
  text2 : Text
  text3 : Text
deriving DecidableEq, Repr

/-- The fields a CONFRIDE carries, each present or not (R19, R20). OPENS_AT and SHORT_NAME may be present with the
value NONE, the inner `none`. -/
structure RideFields where
  fullName : Option Text := none
  shortName : Option (Option Text) := none
  fieldAddress : Option Nat := none
  c : Option Nat := none
  p : Option Nat := none
  walk : Option Nat := none
  opensAt : Option (Option Nat) := none
  auto : Option Bool := none
  codePersist : Option Nat := none
  clearPersist : Option Nat := none
  stallTime : Option Nat := none
  downAfter : Option Nat := none
  testDispatches : Option Nat := none
  testMinutes : Option Nat := none
deriving DecidableEq, Repr

/-- One entry of a CONFNOTE, as the bytes it carries (R165, R183): 255 is ALL; mask 0 SET, 1 CLEAR, 2 KEEP;
edge 0 RISE, 1 BOTH, 2 KEEP. -/
structure NoteEntry where
  cls : Nat
  src : Nat
  mask : Nat
  edge : Nat
deriving DecidableEq, Repr

/-- One entry of a CLEARNOTE (R166). -/
structure ClearEntry where
  cls : Nat
  src : Nat
deriving DecidableEq, Repr

/-- A request as its frame carries it, after the length check of R174. A Boolean `bad` tells that a flag or presence
byte of the request has a bit set that its layout does not define (R178, R183). Actions, kinds, settings and guard
codes are the bytes as received. -/
inductive Request where
  | setclock (seconds : Nat)
  | openday (openMin closeMin : Nat)
  | closeday
  | confpark (given : Params)
  | confride (ride : Nat) (remove : Bool) (fields : RideFields) (bad : Bool)
  | setride (ride action guard operand : Nat)
  | fieldinfo (ride : Nat)
  | setqueue (ride guard operand queue : Nat)
  | rideinfo (ride : Nat)
  | setwindow (ride guard operand first last capacity : Nat)
  | windowinfo (ride first : Nat)
  | reserve (ride token party guard operand flags : Nat)
  | redeem (pass count : Nat)
  | void (pass : Nat)
  | lookup (pass : Nat)
  | listpasses (ride : Nat) (window : Option Nat) (cursor : Nat) (bad : Bool)
  | accountinfo (token : Nat)
  | confboard (address : Nat) (remove : Bool) (kind ride : Option Nat) (bad : Bool)
  | confpane (address pane : Nat) (list : List Nat) (rows pagePasses : Nat) (skipClosed : Bool) (fit : Nat) (bad : Bool)
  | boardtext (address line action : Nat) (text : Text) (duration : Nat) (blink bad : Bool)
  | boardinfo (address : Nat)
  | confnote (entries : List NoteEntry)
  | clearnote (entries : List ClearEntry)
  | noteinfo (cls : Nat)
  | status
  | restart (kind : Nat)
deriving DecidableEq, Repr

/-- The commands of the block. The first operand of every request command is the TAG the host chose (R169). -/
inductive Instr where
  /-- POWER_ON (R17) -/
  | powerOn
  /-- SECOND_TICK (R2): a second of the reference clock -/
  | secondTick
  /-- HOLD_COUNTDOWN (R4) -/
  | holdCountdown
  /-- HOLD_END (R4) -/
  | holdEnd
  /-- STALL_TIMER_EXPIRY (R31) -/
  | stallTimerExpiry (ride : Nat)
  /-- CODE_RISE (R35) -/
  | codeRise (ride : Nat)
  /-- CODE_FALL (R36) -/
  | codeFall (ride : Nat)
  /-- HELD_TOO_LONG (R32) -/
  | heldTooLong (ride : Nat)
  /-- TEST_COMPLETE (R29) -/
  | testComplete (ride : Nat)
  /-- STALE_HOLD_REACHED (R77) -/
  | staleHoldReached (ride : Nat)
  /-- OVERRIDE_EXPIRY (R155) -/
  | overrideExpiry (board line : Nat)
  /-- POLL_SENT (R44) -/
  | pollSent
  /-- GOOD_REPLY (R48): bytes received in the reply window -/
  | goodReply (bytes : List Byte)
  /-- POLL_MISS (R47): the last bytes of the reply window and its close -/
  | pollMiss (bytes : List Byte)
  /-- PASS_INTERVAL_EXPIRY (R140) -/
  | passIntervalExpiry
  /-- PASS_START (R141) -/
  | passStart
  /-- LINE_FRAME_SENT (R142) -/
  | lineFrameSent
  /-- BOARD_STATUS (R144): a byte received on the board link -/
  | boardStatus (status : Byte)
  /-- BOARD_MISS (R144) -/
  | boardMiss
  /-- FRAME_RECEIVED (R172): bytes received on the operations link without a gap -/
  | frameReceived (bytes : List Byte)
  /-- LENGTH_ERROR (R171): the two LENGTH bytes received -/
  | lengthError (high low : Byte)
  /-- RECEIVE_TIMEOUT (R171) -/
  | receiveTimeout
  /-- UNKNOWN_CLASS (R174): a frame with this TAG and a CLASS outside 1..26 is taken -/
  | unknownClass (tag cls : Nat)
  /-- REPLY_GRANTED (R176) -/
  | replyGranted
  /-- NOTICE_GRANTED (R163) -/
  | noticeGranted
  /-- OUTPUT_RECORD_SEND (R175) -/
  | outputRecordSend
  /-- OPENING_END (R10) -/
  | openingEnd
  /-- RESTART_TAKES_EFFECT (R181) -/
  | restartTakesEffect
  /-- SETCLOCK (R3, R4) -/
  | setclock (tag seconds : Nat)
  /-- OPENDAY (R6) -/
  | openday (tag openMin closeMin : Nat)
  /-- CLOSEDAY (R11) -/
  | closeday (tag : Nat)
  /-- CONFPARK (R13) -/
  | confpark (tag : Nat) (given : Params)
  /-- CONFRIDE (R21) -/
  | confride (tag ride : Nat) (fields : RideFields)
  /-- CONFRIDE_REMOVE (R22) -/
  | confrideRemove (tag ride : Nat)
  /-- SETRIDE_OPEN (R39) -/
  | setrideOpen (tag ride guard operand : Nat)
  /-- SETRIDE_HOLD (R39) -/
  | setrideHold (tag ride guard operand : Nat)
  /-- SETRIDE_RESUME (R39) -/
  | setrideResume (tag ride guard operand : Nat)
  /-- SETRIDE_DOWN (R40) -/
  | setrideDown (tag ride guard operand : Nat)
  /-- SETRIDE_CLEAR (R40) -/
  | setrideClear (tag ride guard operand : Nat)
  /-- SETRIDE_LASTENTRY (R40) -/
  | setrideLastentry (tag ride guard operand : Nat)
  /-- SETRIDE_CLOSE (R40) -/
  | setrideClose (tag ride guard operand : Nat)
  /-- FIELDINFO (R58) -/
  | fieldinfo (tag ride : Nat)
  /-- SETQUEUE (R64) -/
  | setqueue (tag ride guard operand queue : Nat)
  /-- RIDEINFO (R82) -/
  | rideinfo (tag ride : Nat)
  /-- SETWINDOW (R89) -/
  | setwindow (tag ride guard operand first last capacity : Nat)
  /-- WINDOWINFO (R100) -/
  | windowinfo (tag ride first : Nat)
  /-- RESERVE (R115), QUOTE clear -/
  | reserve (tag ride token party guard operand : Nat)
  /-- RESERVE_QUOTE (R116), QUOTE set -/
  | reserveQuote (tag ride token party guard operand : Nat)
  /-- REDEEM (R120) -/
  | redeem (tag pass count : Nat)
  /-- VOID (R126) -/
  | void (tag pass : Nat)
  /-- LOOKUP (R129) -/
  | lookup (tag pass : Nat)
  /-- LISTPASSES (R130) -/
  | listpasses (tag ride : Nat) (window : Option Nat) (cursor : Nat)
  /-- ACCOUNTINFO (R131) -/
  | accountinfo (tag token : Nat)
  /-- CONFBOARD (R138): KIND and ride as given -/
  | confboard (tag address : Nat) (kind ride : Option Nat)
  /-- CONFBOARD_REMOVE (R138) -/
  | confboardRemove (tag address : Nat)
  /-- CONFPANE (R139) -/
  | confpane (tag address pane : Nat) (list : List Nat) (rows pagePasses : Nat) (skipClosed : Bool) (fit : Nat)
  /-- BOARDTEXT_SET (R154) -/
  | boardtextSet (tag address line : Nat) (text : Text) (duration : Nat) (blink : Bool)
  /-- BOARDTEXT_RELEASE (R154) -/
  | boardtextRelease (tag address line : Nat)
  /-- BOARDINFO (R156) -/
  | boardinfo (tag address : Nat)
  /-- CONFNOTE (R165) -/
  | confnote (tag : Nat) (entries : List NoteEntry)
  /-- CLEARNOTE (R166) -/
  | clearnote (tag : Nat) (entries : List ClearEntry)
  /-- NOTEINFO (R167): a class code, or 255 for ALL -/
  | noteinfo (tag cls : Nat)
  /-- STATUS (R180) -/
  | status (tag : Nat)
  /-- RESTART_WARM (R181) -/
  | restartWarm (tag : Nat)
  /-- RESTART_COLD (R181) -/
  | restartCold (tag : Nat)
  /-- FRAME_BEGINS (R171): a byte of 0x5A is received -/
  | frameBegins
  /-- ABANDONED_FRAME_WINDOW_CLOSE (R143) -/
  | abandonedFrameWindowClose
deriving DecidableEq, Repr

end Sys2Proof
end

