-- ==== Sys2Proof/Decode.lean ====
section
/-! DEFINITION. The command a word of the opcode table's bits spells. No row of spec/opcode_table.json gives bits
(every row has "fields": [] and no "fixed"), so no word spells a command. The frames of the operations link are parsed
in Machine/Operands.lean. -/

namespace Sys2Proof

/-- The command that a word spells by the table's bits: none, since no row gives bits. -/
def decodeTableWord (_nbits _w : Nat) : Option Instr := none

end Sys2Proof
end

