-- ==== Sys2Proof/Config.lean ====
section
/-! DEFINITION. What the spec fixes for the part: sizes of its stores, ranges of its quantities, fixed times; and the free
values that stand for the orders it leaves open. -/

namespace Sys2Proof

/-- One receiver's taking of the ticks and day events of one advance of CLOCK, for one ride where it has one. -/
inductive Taking where
  /-- the Ride State Unit takes the second tick for the ride -/
  | second (ride : Nat)
  /-- the Ride State Unit takes the minute tick for the ride -/
  | testMinute (ride : Nat)
  /-- the Flow Estimator takes the minute tick for the ride, its held-minute report being taken as it is made -/
  | estimator (ride : Nat)
  /-- the same, the held-minute report being taken after the estimator's last step -/
  | estimatorLate (ride : Nat)
  /-- the Board Composer takes the minute tick -/
  | overrides
  /-- the Return Book takes the window events of the tick for the ride -/
  | windows (ride : Nat)
  /-- the Return Book takes the state change reports it has not taken yet -/
  | lateReports
  /-- the Time Base delivers the park close, setting CLOSE_PASSED -/
  | closePassed
  /-- the Ride State Unit takes the park-close event for the ride -/
  | parkClose (ride : Nat)
  /-- the Ride State Unit takes the ride's opening event -/
  | opening (ride : Nat)
deriving DecidableEq, Repr

/-- The receivers of a state change report; the Notice Unit is two, for its STATE event and its STALL level. -/
inductive Hearer where
  | estimator | book | boards | stallNotice | stateNotice
deriving DecidableEq, Repr

end Sys2Proof

namespace Sys2Proof.Config

/-- Rides are numbered 1 to 48 (00_scope, Quantities). -/
def rides : Nat := 48
/-- Board addresses are 1 to 64 (00_scope, Quantities). -/
def boards : Nat := 64
/-- Seconds of the day (R1). -/
def daySeconds : Nat := 86400
/-- Minutes of the day (00_scope, Quantities). -/
def dayMinutes : Nat := 1440
/-- The largest forward or backward correction in DAY, in seconds (R4). -/
def correctionMax : Nat := 120
/-- Seconds of the opening erase (R7). -/
def eraseSeconds : Nat := 2
/-- Most windows of a day (R6). -/
def windowsMax : Nat := 96
/-- Records the pass table holds (R105). -/
def passRecords : Nat := 49152
/-- Records the account table holds (R109). -/
def accountRecords : Nat := 24576
/-- The largest pass number (R102). -/
def passMax : Nat := 16777215
/-- The pass serial at which no number remains for the day (R104). -/
def serialEnd : Nat := 16777216
/-- Active passes at which the BOOK level holds (R132). -/
def bookPasses : Nat := 44237
/-- Account records at which the BOOK level holds (R132). -/
def bookAccounts : Nat := 22119
/-- The largest window capacity (R84, R89). -/
def capMax : Nat := 7499
/-- The largest queue estimate (R60). -/
def queueMax : Nat := 9999
/-- The largest smoothed rate, in eighths (R60). -/
def rateMax : Nat := 32767
/-- The bound of the minute accumulators (R65). -/
def accumulatorMax : Nat := 4095
/-- The bound of WR, WT and HELD_MIN (R71, R72, R73). -/
def waitMax : Nat := 999
/-- The least smoothed rate the wait is divided by, in eighths (R71). -/
def rateLeast : Nat := 8
/-- Bound on the entered, standby and return deltas of one reply (R53). -/
def guestDeltaMax : Nat := 600
/-- Bound on the dispatch delta of one reply (R53). -/
def dispatchDeltaMax : Nat := 60
/-- Bytes of a report (R45). -/
def reportBytes : Nat := 13
/-- Misses in a row that make a board SILENT (R144). -/
def boardMisses : Nat := 3
/-- Longest override, in minutes (R154). -/
def overrideMax : Nat := 1440
/-- Lines of a HUB board, the most a board has (R135). -/
def boardLines : Nat := 16
/-- Characters of a board line (R135). -/
def lineWidth : Nat := 20
/-- Frames the input queue holds (R172). -/
def inputPlaces : Nat := 8
/-- Records the output queue holds (R175). -/
def outputPlaces : Nat := 32
/-- The bound of the 16-bit counters (R171). -/
def counterMax : Nat := 65535
/-- The largest LENGTH of an operations frame (R169). -/
def lengthMax : Nat := 1000
/-- Entries on one page of WINDOWINFO or LISTPASSES (R100, R130). -/
def pageEntries : Nat := 16
/-- Entries CONFNOTE and CLEARNOTE may carry (R165). -/
def noteEntries : Nat := 64

/-! ### Free values: the orders the spec leaves open (log 4). Nothing is known of them. -/

/-- The order in which the receivers of an advance of CLOCK take its ticks and day events (R2, R24, R32, R73, R76). -/
opaque tickOrder : Nat → List Taking

/-- The order in which the receivers of a state change report take it (R23). -/
opaque reportOrder : Nat → List Hearer

/-- The Ride State Unit takes its parts of a good reply before the Flow Estimator (R49, R54). -/
opaque unitFirst : Nat → Bool

/-- The grace end that falls together with a state change report is taken by the Return Book before it (R91). -/
opaque graceFirst : Nat → Bool

end Sys2Proof.Config
end

