-- ==== Sys2Proof/Machine/State.lean ====
section
/-! DEFINITION. The state of the part, block by block as 00_scope lists the owners, as plain data; the faults and
refusals a step may end in; the state after power-on. -/

namespace Sys2Proof.Machine

/-- No command of this block stops the machine: the spec gives every one an effect in every state. -/
inductive Fault where
deriving DecidableEq, Repr

/-- Why a command has no meaning. -/
inductive Refusal where
  /-- Raised by an arm of exec whose row has no meaning yet; safe. No arm raises it now. -/
  | notModelled (mnemonic : String)
deriving DecidableEq, Repr

/-! ### Names -/

/-- The outcome codes of R177, in the order of their codes. -/
inductive Code where
  | done | clamped | guardFalse | busy | malformed | badState | noDay | noTime | noData | unknownRide | unknownBoard
  | unknownPass | rideDown | rideNotReady | rideClosed | soldOut | bookFull | accountFull | activeLimit | duplicate
  | dailyLimit | tooEarly | tooLate | alreadyUsed | voidedPass
deriving DecidableEq, Repr

/-- The state of CLOCK (R1). -/
inductive ClockState where
  | unset | running
deriving DecidableEq, Repr

/-- The day state (R5). -/
inductive DayState where
  | idle | opening | day | after
deriving DecidableEq, Repr

/-- CAUSE of TESTING (R18). -/
inductive TestCause where
  | fromClosed | fromDown
deriving DecidableEq, Repr

/-- CAUSE of HELD (R18). -/
inductive HeldCause where
  | stall | operations
deriving DecidableEq, Repr

/-- CAUSE of DOWN (R18). -/
inductive DownCause where
  | code | heldTooLong | operations
deriving DecidableEq, Repr

/-- STATE of a ride with its CAUSE, which the states CLOSED, OPEN and CLOSING do not have (R18). -/
inductive RideState where
  | closed
  | testing (cause : TestCause)
  | opened
  | held (cause : HeldCause)
  | down (cause : DownCause)
  | closing
deriving DecidableEq, Repr

/-- State of a ride's field link (R43). -/
inductive Link where
  | never | up | lost
deriving DecidableEq, Repr

/-- STATE of a pass (R102). -/
inductive PassState where
  | issued | flex | redeemed | expired | voided
deriving DecidableEq, Repr

/-- PRESENCE of a board (R134). -/
inductive Presence where
  | unknown | present | silent
deriving DecidableEq, Repr

/-- Name-fitting order of a pane (R136). -/
inductive Fit where
  | fullFirst | shortFirst
deriving DecidableEq, Repr

/-- The eleven notice classes, in the order of R158. -/
inductive NoteClass where
  | state | stall | code | link | gap | jump | slots | flex | board | book | overrun
deriving DecidableEq, Repr

/-- Edge setting of a level class (R159). -/
inductive Edge where
  | rise | both
deriving DecidableEq, Repr

/-- Kind of a restart (R181). -/
inductive RestartKind where
  | warm | cold
deriving DecidableEq, Repr

/-! ### Time Base -/

/-- The day plan (R6). -/
structure Plan where
  openMin : Nat
  closeMin : Nat
  len : Nat
  n : Nat
deriving DecidableEq, Repr

/-- A list event of the day schedule (R14). -/
inductive DayEvent where
  | windowStart (i : Nat)
  | graceEnd (i : Nat)
  | parkClose
  | gridEnd
deriving DecidableEq, Repr

/-- An event with the minute whose tick delivers it; 1,440 is the tick into 00:00 (R14). -/
structure Scheduled where
  minute : Nat
  event : DayEvent
deriving DecidableEq, Repr

/-- The Time Base (R1, R5, R12, R14, R17). -/
structure TimeBase where
  clock : Nat
  clockState : ClockState
  hold : Nat
  day : DayState
  plan : Option Plan
  schedule : List Scheduled
  position : Nat
  /-- rides whose opening event has been delivered today (R15), rising -/
  openMarks : List Nat
  closePassed : Bool
  params : Params
  /-- tag and outcome of the pending OPENDAY reply (R6) -/
  pendingOpen : Option (Nat × Code)
  /-- reference seconds run of the opening erase, while it is in progress (R7) -/
  erase : Option Nat
deriving DecidableEq, Repr

/-! ### Ride State Unit -/

/-- The ride configuration record (R19). -/
structure RideConfig where
  fullName : Text
  shortName : Option Text
  fieldAddress : Nat
  c : Nat
  p : Nat
  walk : Nat
  opensAt : Option Nat
  auto : Bool
  codePersist : Nat
  clearPersist : Nat
  stallTime : Nat
  downAfter : Nat
  testDispatches : Nat
  testMinutes : Nat
deriving DecidableEq, Repr

/-- The ride record (R18). -/
structure RideUnit where
  config : RideConfig
  state : RideState
  since : Option Nat
  stall : Nat
  fault : Nat
  clear : Nat
  codeLevel : Bool
  testDispatches : Nat
  testMinutes : Nat
deriving DecidableEq, Repr

/-- What a state change report carries (R23). -/
structure StateReport where
  ride : Nat
  prev : RideState
  new : RideState
  since : Option Nat
deriving DecidableEq, Repr

/-! ### Field Poller -/

/-- The four counters of a report or a baseline (R43, R50). -/
structure Counters where
  entered : Nat
  standby : Nat
  ret : Nat
  dispatches : Nat
deriving DecidableEq, Repr

/-- The field record (R43). -/
structure FieldRecord where
  address : Nat
  link : Link
  misses : Nat
  baseValid : Bool
  base : Counters
  lastCode : Option Nat
  gap : Nat
deriving DecidableEq, Repr

/-- The field line: idle, a poll outstanding with the bytes its window has gathered, or reserved after an abandoned
poll (R45, R46). -/
inductive FieldLine where
  | idle
  | outstanding (ride address : Nat) (gathered : List Byte)
  | reserved
deriving DecidableEq, Repr

/-- The Field Poller (R43, R44, R59). -/
structure Poller where
  records : Table FieldRecord
  line : FieldLine
  /-- the ride last polled in this cycle; 0 before the first -/
  last : Nat
  /-- the last poll frame put on the line (R184) -/
  sent : List Byte
deriving DecidableEq, Repr

/-! ### Flow Estimator -/

/-- A published wait: VALUE and PLUS (R60). -/
structure Wait where
  value : Nat
  plus : Bool
deriving DecidableEq, Repr

/-- The estimator record (R60). PRESENT is `wait.isSome`. -/
structure Estimator where
  q : Nat
  s : Nat
  sr : Nat
  m : Nat
  mr : Nat
  eligible : Bool
  heldMin : Nat
  staleTimer : Nat
  stale : Bool
  renew : Bool
  wr : Nat
  wt : Nat
  wait : Option Wait
deriving DecidableEq, Repr

/-! ### Return Book -/

/-- A window record (R84). Its INDEX is its place in the ride's list, kept in the record as the spec lists it. -/
structure Window where
  index : Nat
  startMin : Nat
  endMin : Nat
  graceEnd : Nat
  cap : Nat
  issued : Nat
  hold : Nat
  started : Bool
  interrupted : Bool
  resolved : Bool
  passes : List Nat
deriving DecidableEq, Repr

/-- What the Return Book keeps per ride: its windows, F, U and the two levels (R84, R95, R98), and whether it has taken the
end of the grid, from which the lead window is absent (R86). -/
structure RideBook where
  windows : List Window := []
  f : Nat := 0
  u : Nat := 0
  flexLevel : Bool := false
  slotsLevel : Bool := false
  gridEnded : Bool := false
deriving DecidableEq, Repr

/-- A pass record; PASS is its key in the pass table (R102). -/
structure Pass where
  ride : Nat
  window : Nat
  account : Nat
  party : Nat
  remaining : Nat
  state : PassState
  issuedAt : Nat
  firstUse : Option Nat
  flexAt : Option Nat
  retiredAt : Option Nat
deriving DecidableEq, Repr

/-- An account record; TOKEN is its key in the account table (R108). -/
structure Account where
  active : List Nat
  issuedToday : Nat
  firstSeen : Nat
deriving DecidableEq, Repr

/-- The Return Book (R84, R95, R104 to R109, R132). -/
structure Book where
  rides : Table RideBook
  /-- state change reports made to the Return Book that it has not taken yet, oldest first (R91; log 30) -/
  late : List StateReport
  passes : Table Pass
  /-- the retirement queue, first retired first (R106) -/
  retired : List Nat
  serial : Nat
  accounts : Table Account
  activeCount : Nat
  bookLevel : Bool
deriving DecidableEq, Repr

/-! ### Board Composer -/

/-- OVERRIDE_LEFT (R135). -/
inductive Left where
  | minutes (n : Nat)
  | untilReleased
deriving DecidableEq, Repr

/-- OVERRIDE with its OVERRIDE_LEFT, which are present together (R135). -/
structure Override where
  text : Text
  left : Left
deriving DecidableEq, Repr

/-- A line record (R135). -/
structure Line where
  override : Option Override
  blink : Nat
  shown : Option Nat
  lastText : Option Text
deriving DecidableEq, Repr

/-- A pane record (R136). -/
structure Pane where
  list : List Nat
  rows : Nat
  pagePasses : Nat
  skipClosed : Bool
  fit : Fit
  page : Nat
  pageCount : Nat
deriving DecidableEq, Repr

/-- KIND of a board, with its RIDE or its panes (R134). -/
inductive Kind where
  | ride (ride : Nat)
  | hub (pane1 pane2 : Pane)
deriving DecidableEq, Repr

/-- A board record; ADDRESS is its key in the board table (R134). -/
structure Board where
  kind : Kind
  lines : List Line
  presence : Presence
  misses : Nat
  lastStatus : Option Nat
  level : Bool
deriving DecidableEq, Repr

/-- The board line: idle, a line frame outstanding, or reserved after an abandonment (R142, R143). -/
inductive BoardLine where
  | idle
  | outstanding (board line : Nat)
  | reserved
deriving DecidableEq, Repr

/-- The Board Composer (R134, R140, R141, R157). -/
structure Composer where
  table : Table Board
  /-- seconds the interval timer has run (R140) -/
  timer : Nat
  due : Bool
  /-- the pass in progress: board and line last sent in it, 0 and 0 at its start; the line stands at the last a board
  can have once that board is removed (R141) -/
  pass : Option (Nat × Nat)
  line : BoardLine
  /-- a pass starts when the reserved window closes, after RESTART WARM (R143) -/
  startOwed : Bool
  /-- the last line frame put on the line (R184) -/
  sent : List Byte
deriving DecidableEq, Repr

/-! ### Notice Unit -/

/-- What a latched record holds beside its class and source (R159). -/
structure Latched where
  clock : Nat
  level : Bool
  detail : Nat
deriving DecidableEq, Repr

/-- A notice slot (R159). PENDING is `pending.isSome`; `image` is used by level classes only. -/
structure Slot where
  pending : Option Latched
  mask : Bool
  sent : Bool
  image : Bool
deriving DecidableEq, Repr

/-- The class and source that name a slot (R158). -/
structure SlotId where
  cls : NoteClass
  src : Nat
deriving DecidableEq, Repr

/-- The seven edge settings (R159). -/
structure Edges where
  stall : Edge
  code : Edge
  link : Edge
  slots : Edge
  flex : Edge
  board : Edge
  book : Edge
deriving DecidableEq, Repr

/-- The Notice Unit (R158, R159, R163). A slot not listed is at its reset value. -/
structure NoticeUnit where
  slots : Table Slot
  edges : Edges
  sendList : List SlotId
deriving DecidableEq, Repr

/-! ### Operations Port -/

/-- A frame of the operations link, its CHECK found good (R169, R172). -/
structure Frame where
  tag : Nat
  cls : Nat
  params : List Byte
deriving DecidableEq, Repr

/-- What RIDEINFO shows of a configured ride (R82). -/
structure RideView where
  ride : Nat
  unit : RideUnit
  link : Link
  lastCode : Option Nat
  est : Estimator
deriving DecidableEq, Repr

/-- What WINDOWINFO shows of a configured ride (R100). -/
structure WindowView where
  ride : Nat
  count : Nat
  len : Option Nat
  f : Nat
  u : Nat
  flexLevel : Bool
  slotsLevel : Bool
  lead : Option Nat
  windows : List Window
  next : Option Nat
deriving DecidableEq, Repr

/-- The optional fields of the RESERVE reply (R117). -/
structure ReserveView where
  pass : Option Nat := none
  window : Option Nat := none
  startMin : Option Nat := none
  endMin : Option Nat := none
  party : Option Nat := none
  t : Option Nat := none
  conflict : Option Nat := none
  ride : Option RideState := none
deriving DecidableEq, Repr

/-- The optional fields of the REDEEM reply (R125). -/
structure RedeemView where
  admitted : Option Nat := none
  ride : Option Nat := none
  window : Option Nat := none
  state : Option PassState := none
  remaining : Option Nat := none
  firstUse : Option Nat := none
  startMin : Option Nat := none
  endMin : Option Nat := none
  rideState : Option RideState := none
deriving DecidableEq, Repr

/-- The optional fields of the VOID reply (R128). -/
structure VoidView where
  ride : Option Nat := none
  window : Option Nat := none
  state : Option PassState := none
  remaining : Option Nat := none
  returned : Option Nat := none
deriving DecidableEq, Repr

/-- What STATUS shows (R180). -/
structure StatusView where
  clock : Nat
  clockState : ClockState
  hold : Nat
  day : DayState
  closePassed : Bool
  plan : Option Plan
  openPending : Bool
  rides : Nat
  boards : Nat
  serial : Nat
  passes : Nat
  active : Nat
  accounts : Nat
  retired : Nat
  bookLevel : Bool
  sendWaiting : Bool
  sendLength : Nat
  inputs : Nat
  outputs : Nat
  crcErrors : Nat
  timeouts : Nat
  overruns : Nat
deriving DecidableEq, Repr

/-- One class line of NOTEINFO ALL: slots pending, slots with MASK clear, and images set for a level class (R167). -/
structure ClassCount where
  pending : Nat
  unmasked : Nat
  images : Option Nat
deriving DecidableEq, Repr

/-- The fields of a reply after TAG and CLASS, one constructor per reply layout (R174, R183, R184). -/
inductive ReplyBody where
  /-- MALFORMED alone, of the port's checks 1 and 2 (R174) -/
  | bare
  | setclock (o : Code) (clock : Nat) (clockState : ClockState) (hold : Nat)
  | openday (o : Code) (plan : Option Plan)
  | closeday (o : Code)
  | confpark (o : Code) (stored : Params)
  | confride (o : Code) (stored : Option RideConfig)
  | setride (o : Code) (ride : Nat) (shown : Option (RideState × Option Nat))
  | fieldOne (o : Code) (shown : Option (Nat × FieldRecord × Bool))
  | fieldAll (o : Code) (rides : List (Nat × FieldRecord))
  | setqueue (o : Code) (ride : Nat) (shown : Option (Nat × Option Wait))
  | rideinfo (o : Code) (shown : Option RideView)
  | setwindow (o : Code) (ride : Nat) (shown : Option (Nat × Nat × List Window))
  | windowinfo (o : Code) (shown : Option WindowView)
  | reserve (o : Code) (ride : Nat) (shown : ReserveView)
  | redeem (o : Code) (pass : Nat) (shown : RedeemView)
  | void (o : Code) (pass : Nat) (shown : VoidView)
  | lookup (o : Code) (shown : Option (Nat × Pass)) (times : Option (Nat × Nat × Nat))
  | listpasses (o : Code) (page : Option (List (Nat × Pass))) (next : Option Nat)
  | accountinfo (o : Code) (shown : Option (Nat × Account × List (Nat × Pass)))
  | confboard (o : Code) (shown : Option (Nat × Kind))
  | confpane (o : Code) (address pane : Nat) (stored : Option Pane)
  | boardtext (o : Code) (address line : Nat) (shown : Option Override)
  | boardOne (o : Code) (shown : Option (Nat × Board × Bool))
  | boardAll (o : Code) (inPass due : Bool) (frame : Option (Nat × Nat)) (boards : List (Nat × Board))
  | confnote (o : Code) (applied sendLength : Nat)
  | clearnote (o : Code) (cleared : Nat)
  | noteAll (o : Code) (edges : Edges) (sendWaiting : Bool) (sendLength : Nat) (classes : List ClassCount)
  | noteOne (o : Code) (cls : Nat) (edge : Option Edge) (slots : List (Slot × Bool))
  | status (o : Code) (shown : StatusView)
  | restart (o : Code) (kind : Nat) (clock : Nat) (clockState : ClockState) (dayState : DayState)
deriving DecidableEq, Repr

/-- A record of the output queue: a reply with its TAG and the CLASS of its request, or a NOTICE (R175). -/
inductive Record where
  | reply (tag cls : Nat) (body : ReplyBody)
  | notice (id : SlotId) (latched : Latched)
deriving DecidableEq, Repr

/-- The receiver with the frame being assembled (R171): LENGTH bytes so far in HEADER; LENGTH and body bytes so far in
BODY; LENGTH, body and check bytes so far in CHECK. -/
inductive Receiver where
  | hunt
  | header (got : List Byte)
  | body (length : Nat) (got : List Byte)
  | check (length : Nat) (body got : List Byte)
deriving DecidableEq, Repr

/-- The Operations Port (R171 to R176, R181, R182). -/
structure Port where
  receiver : Receiver
  input : List Frame
  output : List Record
  waiting : List Record
  /-- the grant marker: the notices won the last contested place (R176) -/
  noticesLast : Bool
  restartPending : Option RestartKind
  crcErrors : Nat
  timeouts : Nat
  overruns : Nat
  /-- the record whose first byte has been sent last (R175, R181) -/
  sending : Option Record
deriving DecidableEq, Repr

/-! ### Open orders -/

/-- The free value of the model: the orders in which receivers take what reaches them at one moment, where the spec
says either may be first (log 4). Each use takes the head of its list, an order already settled; with none settled it
draws the next free value of Config, `drawn` counting the draws. -/
structure Orders where
  ticks : List (List Taking)
  reports : List (List Hearer)
  /-- for a good reply: the Ride State Unit takes its parts before the Flow Estimator (R49, R54) -/
  handovers : List Bool
  /-- for a state change report that falls together with a grace end: the Return Book takes the grace end first (R91) -/
  graces : List Bool
  drawn : Nat
deriving DecidableEq, Repr

/-! ### The part -/

/-- The state of the part, and the queue of commands that wait, first in first out. -/
structure State where
  time : TimeBase
  units : Table RideUnit
  poller : Poller
  ests : Table Estimator
  book : Book
  boards : Composer
  notices : NoticeUnit
  port : Port
  orders : Orders
  pending : List Instr
deriving DecidableEq, Repr

/-- The default park parameter set (R12). -/
def Params.default : Params :=
  { k := 4, l := 15, step := 5, postMax := 120, hyst := 5, jump := 20, staleHold := 5, silencePolls := 5, lead := 30,
    gEarly := 5, gLate := 15, a := 1, d := 0, slotLow := 20, passInterval := 2, blinkPasses := 6, blinkDuty := 50,
    text1 := List.replicate Config.lineWidth 0x20#8, text2 := List.replicate Config.lineWidth 0x20#8,
    text3 := List.replicate Config.lineWidth 0x20#8 }

/-- The Time Base after power-on (R17). -/
def TimeBase.reset : TimeBase :=
  { clock := 0, clockState := .unset, hold := 0, day := .idle, plan := none, schedule := [], position := 0,
    openMarks := [], closePassed := false, params := Params.default, pendingOpen := none, erase := none }

/-- The Field Poller after power-on (R59). -/
def Poller.reset : Poller := { records := [], line := .idle, last := 0, sent := [] }

/-- The Return Book after power-on (R101, R133). -/
def Book.reset : Book :=
  { rides := [], late := [], passes := [], retired := [], serial := 1, accounts := [], activeCount := 0, bookLevel := false }

/-- The Board Composer after power-on (R157). -/
def Composer.reset : Composer :=
  { table := [], timer := 0, due := false, pass := none, line := .idle, startOwed := false, sent := [] }

/-- A notice slot after power-on: MASK set, all else clear (R168). -/
def Slot.reset : Slot := { pending := none, mask := true, sent := false, image := false }

/-- The Notice Unit after power-on (R168). -/
def NoticeUnit.reset : NoticeUnit :=
  { slots := [],
    edges := { stall := .rise, code := .rise, link := .rise, slots := .rise, flex := .rise, board := .rise, book := .rise },
    sendList := [] }

/-- The Operations Port after power-on and after either restart (R182). -/
def Port.reset : Port :=
  { receiver := .hunt, input := [], output := [], waiting := [], noticesLast := true, restartPending := none,
    crcErrors := 0, timeouts := 0, overruns := 0, sending := none }

/-- The part right after power-on (R17, R42, R59, R83, R101, R133, R157, R168, R182), no command waiting. No
order is settled and none drawn (DESIGN CHOICE, log 4). -/
def State.reset : State :=
  { time := TimeBase.reset, units := [], poller := Poller.reset, ests := [], book := Book.reset,
    boards := Composer.reset, notices := NoticeUnit.reset, port := Port.reset,
    orders := { ticks := [], reports := [], handovers := [], graces := [], drawn := 0 }, pending := [] }

end Sys2Proof.Machine
end

