-- ==== Sys2Proof/Machine/Ops.lean ====
section
/-! DEFINITION. The named operations over tables, counts and the state's parts that every family uses. -/

namespace Sys2Proof

/-! ### Tables -/

/-- The record at a key. -/
def Table.find {α : Type} : Table α → Nat → Option α
  | [], _ => none
  | (k, v) :: t, key => if k = key then some v else Table.find t key

/-- Store a record at a key, keeping the keys rising. -/
def Table.put {α : Type} : Table α → Nat → α → Table α
  | [], key, x => [(key, x)]
  | (k, v) :: t, key, x =>
      if key < k then (key, x) :: (k, v) :: t
      else if key = k then (key, x) :: t
      else (k, v) :: Table.put t key x

/-- Take the record at a key out. -/
def Table.remove {α : Type} : Table α → Nat → Table α
  | [], _ => []
  | (k, v) :: t, key => if k = key then Table.remove t key else (k, v) :: Table.remove t key

/-- Change the record at a key, if there is one. -/
def Table.update {α : Type} : Table α → Nat → (α → α) → Table α
  | [], _, _ => []
  | (k, v) :: t, key, f => (if k = key then (k, f v) else (k, v)) :: Table.update t key f

/-- Change every record. -/
def Table.each {α β : Type} : Table α → (Nat → α → β) → Table β
  | [], _ => []
  | (k, v) :: t, f => (k, f k v) :: Table.each t f

/-- The keys, rising. -/
def Table.keys {α : Type} : Table α → List Nat
  | [] => []
  | (k, _) :: t => k :: Table.keys t

/-- The canonical form of a table: keys strictly rising. -/
abbrev Table.wf {α : Type} (t : Table α) : Prop := List.Pairwise (· < ·) (Table.keys t)

/-! ### Counts -/

/-- The least whole number not below a / b (00_scope, Arithmetic: ceil). -/
def ceilDiv (a b : Nat) : Nat := (a + (b - 1)) / b

/-- Clamped to lo..hi (00_scope, Arithmetic). -/
def clampTo (lo hi v : Nat) : Nat := if v < lo then lo else if hi < v then hi else v

/-- Growth that saturates at a bound (00_scope, Quantities). A value already above the bound is left at the bound. -/
def saturate (bound v : Nat) : Nat := if bound < v then bound else v

/-- The magnitude of a difference of two counts. -/
def distance (a b : Nat) : Nat := (a - b) + (b - a)

/-- Insert a number into a rising list without repeats. -/
def insertRising (n : Nat) : List Nat → List Nat
  | [] => [n]
  | k :: ks => if n < k then n :: k :: ks else if n = k then k :: ks else k :: insertRising n ks

end Sys2Proof

namespace Sys2Proof.Machine

/-! ### Reading the state -/

/-- The current minute, floor(CLOCK / 60) (R1, R110). -/
def State.minute (s : State) : Nat := s.time.clock / 60

/-- CLOCK as a report or a change of STATE takes it: absent while UNSET (R18). -/
def State.clockNow (s : State) : Option Nat :=
  match s.time.clockState with
  | .unset => none
  | .running => some s.time.clock

/-- What the Return Book keeps for a ride; an empty list, F and U 0, for a ride it holds nothing for (R84, R100). -/
def State.rideBook (s : State) (r : Nat) : RideBook := (s.book.rides.find r).getD {}

/-- The configured rides, rising (R18). -/
def State.rides (s : State) : List Nat := s.units.keys

/-- OPEN, HELD and CLOSING are in service (R18). -/
def RideState.inService : RideState → Bool
  | .opened | .held _ | .closing => true
  | .closed | .testing _ | .down _ => false

/-- HELD, with either cause. -/
def RideState.isHeld : RideState → Bool
  | .held _ => true
  | _ => false

/-- TESTING, with either cause. -/
def RideState.isTesting : RideState → Bool
  | .testing _ => true
  | _ => false

/-- DOWN, with any cause. -/
def RideState.isDown : RideState → Bool
  | .down _ => true
  | _ => false

/-- The code of a STATE with its CAUSE (R162). -/
def RideState.number : RideState → Nat
  | .closed => 0
  | .testing .fromClosed => 1
  | .testing .fromDown => 2
  | .opened => 3
  | .held .stall => 4
  | .held .operations => 5
  | .down .code => 6
  | .down .heldTooLong => 7
  | .down .operations => 8
  | .closing => 9

/-- Codes 128..255 are faults, 0..127 are normal (R50). -/
def faultCode (code : Nat) : Bool := 128 ≤ code

/-! ### Writing one part -/

/-- Change one ride record. -/
def State.modUnit (s : State) (r : Nat) (f : RideUnit → RideUnit) : State :=
  { s with units := s.units.update r f }

/-- Change one field record. -/
def State.modField (s : State) (r : Nat) (f : FieldRecord → FieldRecord) : State :=
  { s with poller := { s.poller with records := s.poller.records.update r f } }

/-- Change one estimator record. -/
def State.modEst (s : State) (r : Nat) (f : Estimator → Estimator) : State :=
  { s with ests := s.ests.update r f }

/-- Change what the Return Book keeps for one ride. -/
def State.modBook (s : State) (r : Nat) (f : RideBook → RideBook) : State :=
  { s with book := { s.book with rides := s.book.rides.update r f } }

/-- Change one window of a ride, by its index. -/
def State.modWindow (s : State) (r i : Nat) (f : Window → Window) : State :=
  s.modBook r fun b => { b with windows := b.windows.modify i f }

/-- Change one pass record. -/
def State.modPass (s : State) (n : Nat) (f : Pass → Pass) : State :=
  { s with book := { s.book with passes := s.book.passes.update n f } }

/-- Change one board record. -/
def State.modBoard (s : State) (a : Nat) (f : Board → Board) : State :=
  { s with boards := { s.boards with table := s.boards.table.update a f } }

/-- Change one line record of a board; lines are numbered from 1 (R135). -/
def Board.modLine (b : Board) (n : Nat) (f : Line → Line) : Board :=
  if n = 0 then b else { b with lines := b.lines.modify (n - 1) f }

/-- One line record of a board. -/
def Board.line? (b : Board) (n : Nat) : Option Line := if n = 0 then none else b.lines[n - 1]?

/-! ### The open orders (log 4) -/

/-- A free value has been drawn. -/
def State.countDraw (s : State) : State := { s with orders := { s.orders with drawn := s.orders.drawn + 1 } }

/-- Take the order of the next advance of CLOCK. -/
def State.takeTickOrder (s : State) : List Taking × State :=
  match s.orders.ticks with
  | [] => (Config.tickOrder s.orders.drawn, s.countDraw)
  | o :: os => (o, { s with orders := { s.orders with ticks := os } })

/-- Take the order of the next state change report. -/
def State.takeReportOrder (s : State) : List Hearer × State :=
  match s.orders.reports with
  | [] => (Config.reportOrder s.orders.drawn, s.countDraw)
  | o :: os => (o, { s with orders := { s.orders with reports := os } })

/-- Take the order in which the next good reply is taken. -/
def State.takeHandover (s : State) : Bool × State :=
  match s.orders.handovers with
  | [] => (Config.unitFirst s.orders.drawn, s.countDraw)
  | o :: os => (o, { s with orders := { s.orders with handovers := os } })

/-- Take the order of the next state change report that falls together with a grace end. -/
def State.takeGraceOrder (s : State) : Bool × State :=
  match s.orders.graces with
  | [] => (Config.graceFirst s.orders.drawn, s.countDraw)
  | o :: os => (o, { s with orders := { s.orders with graces := os } })

/-- Arrange what there is to do in a wished order: what the wish names first, in its order, then the rest as it stood.
`same` says when two names stand for the same taking; the wish's own spelling is used. Nothing is done twice and
nothing is left out. -/
def arrange {α : Type} (same : α → α → Bool) : List α → List α → List α
  | [], todo => todo
  | w :: ws, todo =>
      if todo.any (same w) then w :: arrange same ws (todo.filter fun t => !same w t)
      else arrange same ws todo

end Sys2Proof.Machine
end

