-- ==== Sys2Proof/Machine/Flags.lean ====
section
/-! DEFINITION. Levels and events: the Notice Unit's latch (R158 to R164), and the grants of output places it shares with
the replies (R163, R175, R176). -/

namespace Sys2Proof.Machine

/-! ### Classes and slots (R158, R159) -/

/-- The code of a notice class (R184, the NOTICE record). -/
def NoteClass.number : NoteClass → Nat
  | .state => 0 | .stall => 1 | .code => 2 | .link => 3 | .gap => 4 | .jump => 5 | .slots => 6 | .flex => 7
  | .board => 8 | .book => 9 | .overrun => 10

/-- The class of a code; none for an unknown class. -/
def NoteClass.ofNumber : Nat → Option NoteClass
  | 0 => some .state | 1 => some .stall | 2 => some .code | 3 => some .link | 4 => some .gap | 5 => some .jump
  | 6 => some .slots | 7 => some .flex | 8 => some .board | 9 => some .book | 10 => some .overrun
  | _ => none

/-- The classes in the order of R158. -/
def NoteClass.all : List NoteClass :=
  [.state, .stall, .code, .link, .gap, .jump, .slots, .flex, .board, .book, .overrun]

/-- Which classes are level classes (R158). -/
def NoteClass.isLevel : NoteClass → Bool
  | .stall | .code | .link | .slots | .flex | .board | .book => true
  | .state | .gap | .jump | .overrun => false

/-- The source numbers of a class, rising (R158). -/
def NoteClass.sources : NoteClass → List Nat
  | .board => (List.range Config.boards).map (· + 1)
  | .book | .overrun => [0]
  | _ => (List.range Config.rides).map (· + 1)

/-- The edge setting of a level class; an event class has none and is given RISE, which nothing reads (R159). -/
def Edges.of (e : Edges) : NoteClass → Edge
  | .stall => e.stall | .code => e.code | .link => e.link | .slots => e.slots | .flex => e.flex | .board => e.board
  | .book => e.book
  | .state | .gap | .jump | .overrun => .rise

/-- Store the edge setting of a level class (R165). -/
def Edges.set (e : Edges) (v : Edge) : NoteClass → Edges
  | .stall => { e with stall := v } | .code => { e with code := v } | .link => { e with link := v }
  | .slots => { e with slots := v } | .flex => { e with flex := v } | .board => { e with board := v }
  | .book => { e with book := v }
  | .state | .gap | .jump | .overrun => e

/-- The key of a slot in the slot table; different slots have different keys. -/
def SlotId.key (id : SlotId) : Nat := id.src * 16 + id.cls.number

/-- A notice slot; one not listed is at its reset value. -/
def State.slot (s : State) (id : SlotId) : Slot := (s.notices.slots.find id.key).getD Slot.reset

/-- Store a notice slot, listing it only if it differs from its reset value. -/
def State.setSlot (s : State) (id : SlotId) (v : Slot) : State :=
  { s with notices := { s.notices with
      slots := if v = Slot.reset then s.notices.slots.remove id.key else s.notices.slots.put id.key v } }

/-! ### Grants (R163, R175, R176) -/

/-- The output queue has a place. -/
def State.hasPlace (s : State) : Bool := s.port.output.length < Config.outputPlaces

/-- The oldest waiting reply enters the output queue. -/
def grantReply (s : State) : State :=
  match s.port.waiting with
  | [] => s
  | w :: ws => { s with port := { s.port with output := s.port.output ++ [w], waiting := ws } }

/-- The record of the slot at the head of the send list enters the output queue, and its SENT is set (R163). A listed
slot has a latched record; one without would only leave the list. -/
def grantNotice (s : State) : State :=
  match s.notices.sendList with
  | [] => s
  | id :: ids =>
      let s' := { s with notices := { s.notices with sendList := ids } }
      match (s.slot id).pending with
      | none => s'
      | some l =>
          let s' := s'.setSlot id { s.slot id with sent := true }
          { s' with port := { s'.port with output := s'.port.output ++ [.notice id l] } }

/-- Give one free place of the output queue to who waits for it: a contested place goes to the party that did not win
the last contested one, and only a contest moves the marker (R176). -/
def grantPlace (s : State) : State :=
  if s.hasPlace then
    match s.port.waiting, s.notices.sendList with
    | [], [] => s
    | _ :: _, [] => grantReply s
    | [], _ :: _ => grantNotice s
    | _ :: _, _ :: _ =>
        if s.port.noticesLast then
          grantReply { s with port := { s.port with noticesLast := false } }
        else
          grantNotice { s with port := { s.port with noticesLast := true } }
  else s

/-- A formed reply enters the output queue, or waits when the queue is full (R175). -/
def enterReply (rcd : Record) (s : State) : State :=
  if s.hasPlace then { s with port := { s.port with output := s.port.output ++ [rcd] } }
  else { s with port := { s.port with waiting := s.port.waiting ++ [rcd] } }

/-! ### Reports (R160, R161) -/

/-- A slot joins the end of the send list, where it is at most once, and is granted a place if one is free (R163). -/
def joinSendList (id : SlotId) (s : State) : State :=
  if s.notices.sendList.contains id then s
  else grantPlace { s with notices := { s.notices with sendList := s.notices.sendList ++ [id] } }

/-- A slot leaves the send list without sending (R163). -/
def leaveSendList (id : SlotId) (s : State) : State :=
  { s with notices := { s.notices with sendList := s.notices.sendList.filter (· ≠ id) } }

/-- A report calls for the pending flag of a slot to be set (R161). -/
def setPending (id : SlotId) (level : Bool) (detail : Nat) (s : State) : State :=
  if (s.slot id).pending.isSome then s
  else
    let l : Latched := { clock := s.clockNow.getD 0, level, detail }
    let s' := s.setSlot id { s.slot id with pending := some l, sent := false }
    if (s.slot id).mask then s' else joinSendList id s'

/-- A level report: a rise or a fall of a source of a level class, with its detail byte (R160). -/
def reportLevel (cls : NoteClass) (src : Nat) (level : Bool) (detail : Nat) (s : State) : State :=
  let id : SlotId := { cls, src }
  if level = (s.slot id).image then s
  else
    let s' := s.setSlot id { s.slot id with image := level }
    if level || s.notices.edges.of cls = .both then setPending id level detail s' else s'

/-- An event report with its detail byte (R160); the level after of an event class is clear (R159). -/
def reportEvent (cls : NoteClass) (src detail : Nat) (s : State) : State :=
  setPending { cls, src } false detail s

/-- The level classes of a ride, in the order of R158 (R164). -/
def rideLevels : List NoteClass := [.stall, .code, .link, .slots, .flex]

/-- A ride's source is gone: a fall with detail 0 for each level image that is set (R164). -/
def rideGone (r : Nat) (s : State) : State :=
  rideLevels.foldl (fun s cls => reportLevel cls r false 0 s) s

/-- A board's source is gone (R138, R164). -/
def boardGone (a : Nat) (s : State) : State := reportLevel .board a false 0 s

end Sys2Proof.Machine
end

