-- ==== Sys2Proof/Machine/Operands.lean ====
section
/-! DEFINITION. Bytes of the three lines: the check (R170), the numbers and texts of R183, the requests as frames carry
them (R169, R174, R183), the replies and notices as records are sent (R169, R174, R177, R183, R184), and the records of
the field and board links (R184). Byte widths and groups that R183 does not name are logged (logs 12, 40). -/

namespace Sys2Proof.Machine

/-! ### The check (R170) -/

/-- One step of the check register: shift left by one place, adding 0x1021 when the top bit was set. -/
def crcShift (c : BitVec 16) : BitVec 16 :=
  if c.msb then (c <<< 1) ^^^ 0x1021#16 else c <<< 1

/-- Add one byte to the check register: into the upper eight bits, then eight steps. -/
def crcByte (c : BitVec 16) (b : Byte) : BitVec 16 :=
  crcShift (crcShift (crcShift (crcShift (crcShift (crcShift (crcShift (crcShift
    (c ^^^ (b.setWidth 16 <<< 8)))))))))

/-- The check over a run of bytes, from 0xFFFF, with no final inversion. -/
def crc16 (bs : List Byte) : BitVec 16 := bs.foldl crcByte 0xFFFF#16

/-- The two bytes of a check, high byte first. -/
def crcBytes (bs : List Byte) : List Byte :=
  [((crc16 bs) >>> 8).setWidth 8, (crc16 bs).setWidth 8]

/-! ### Items of R183, sent -/

/-- A number in `n` bytes, most significant first (00_scope, Quantities: Multi-byte fields). -/
def putNum : Nat → Nat → List Byte
  | 0, _ => []
  | n + 1, v => putNum n (v / 256) ++ [BitVec.ofNat 8 v]

/-- A flag or level, one byte. -/
def putFlag (b : Bool) : List Byte := putNum 1 b.toNat

/-- An optional item: a presence byte, then the item, or as many 0 bytes as the item has when it is absent, of which a list or
a text has its count or length byte alone (R183; log 12). -/
def putOpt {α : Type} (width : Nat) (f : α → List Byte) : Option α → List Byte
  | none => putNum 1 0 ++ List.replicate width 0#8
  | some x => putNum 1 1 ++ f x

/-- A text with its length byte. -/
def putText (t : Text) : List Byte := putNum 1 t.length ++ t

/-- A list with its entry count byte. -/
def putList {α : Type} (f : α → List Byte) (xs : List α) : List Byte := putNum 1 xs.length ++ xs.flatMap f

/-! Optional items by kind. Every item that a reply of its class may be without has a presence byte of its own, so the layout
is fixed for the class but for lists and texts (R183; what is an item: log 12). -/

/-- An optional number of `w` bytes. -/
def putOptNum (w : Nat) (x : Option Nat) : List Byte := putOpt w (putNum w) x

/-- An optional flag or level. -/
def putOptFlag (x : Option Bool) : List Byte := putOpt 1 putFlag x

/-- An optional text with its length byte. -/
def putOptText (x : Option Text) : List Byte := putOpt 1 putText x

/-- An optional line text of 20 characters. -/
def putOptLine (x : Option Text) : List Byte := putOpt Config.lineWidth id x

/-- An optional list with its entry count byte. -/
def putOptList {α : Type} (f : α → List Byte) (x : Option (List α)) : List Byte := putOpt 1 (putList f) x

/-! ### Items of R183, received -/

/-- Read `n` bytes as a number, most significant first, on top of `acc`. -/
def getNum : Nat → Nat → List Byte → Option (Nat × List Byte)
  | 0, acc, bs => some (acc, bs)
  | _ + 1, _, [] => none
  | n + 1, acc, b :: bs => getNum n (acc * 256 + b.toNat) bs

/-- Read `n` bytes as they stand. -/
def getBytes : Nat → List Byte → Option (List Byte × List Byte)
  | 0, bs => some ([], bs)
  | _ + 1, [] => none
  | n + 1, b :: bs => (getBytes n bs).map fun (xs, r) => (b :: xs, r)

/-- Read a text with its length byte. -/
def getText (bs : List Byte) : Option (Text × List Byte) :=
  (getNum 1 0 bs).bind fun (n, bs) => getBytes n bs

/-- A number with a fault mark: the mark tells of flag bits the layout does not define (R178). -/
structure Marked (α : Type) where
  value : α
  bad : Bool
deriving DecidableEq, Repr

/-- Read a byte that holds one flag. -/
def getFlag (bs : List Byte) : Option (Marked Bool × List Byte) :=
  (getNum 1 0 bs).map fun (v, r) => (⟨v % 2 = 1, 2 ≤ v⟩, r)

/-- Read an optional item: a presence byte, then the item's bytes in either case. The bytes of an absent item are read and
not looked at, though R183 says that they are 0 (the model's choice, log 39). -/
def getOpt {α : Type} (f : List Byte → Option (α × List Byte)) (bs : List Byte) :
    Option (Marked (Option α) × List Byte) :=
  (getFlag bs).bind fun (p, bs) => (f bs).map fun (x, r) => (⟨if p.value then some x else none, p.bad⟩, r)

/-- Read `n` entries. -/
def getEntries {α : Type} (f : List Byte → Option (α × List Byte)) : Nat → List Byte → Option (List α × List Byte)
  | 0, bs => some ([], bs)
  | n + 1, bs => (f bs).bind fun (x, bs) => (getEntries f n bs).map fun (xs, r) => (x :: xs, r)

/-- Read a list with its entry count byte. -/
def getList {α : Type} (f : List Byte → Option (α × List Byte)) (bs : List Byte) : Option (List α × List Byte) :=
  (getNum 1 0 bs).bind fun (n, bs) => getEntries f n bs

/-- Read numbers of the given byte widths, in order. -/
def getNums : List Nat → List Byte → Option (List Nat × List Byte)
  | [], bs => some ([], bs)
  | w :: ws, bs => (getNum w 0 bs).bind fun (v, bs) => (getNums ws bs).map fun (vs, r) => (v :: vs, r)

/-! ### Requests (R174, R183) -/

/-- What a taken frame is, by the port's first two checks (R174). -/
inductive Parsed where
  | unknownClass
  | badLength
  | request (r : Request)
deriving DecidableEq, Repr

/-- The frame must end exactly where the parameters end (R174, check 2). -/
def whole {α β : Type} (f : α → β) : Option (α × List Byte) → Option β
  | some (x, []) => some (f x)
  | _ => none

/-- CONFPARK: the parameters in the order of R12, every number in 2 bytes (for K and BLINK_DUTY the model's choice, log
40). -/
def getParams (bs : List Byte) : Option (Params × List Byte) := do
  let (ns, bs) ← getNums (List.replicate 17 2) bs
  let (t1, bs) ← getText bs
  let (t2, bs) ← getText bs
  let (t3, bs) ← getText bs
  match ns with
  | [k, l, step, postMax, hyst, jump, staleHold, silencePolls, lead, gEarly, gLate, a, d, slotLow, passInterval,
      blinkPasses, blinkDuty] =>
    some ({ k, l, step, postMax, hyst, jump, staleHold, silencePolls, lead, gEarly, gLate, a, d, slotLow,
            passInterval, blinkPasses, blinkDuty, text1 := t1, text2 := t2, text3 := t3 }, bs)
  | _ => none

/-- CONFRIDE: ride number, the REMOVE flag, then the fields in the order of R19, each with its presence byte. REMOVE and
AUTO stand in a byte each, AUTO being an optional item of its own (the model's choice, log 33); P takes 2 bytes (log 40). -/
def getConfride (bs : List Byte) : Option (Request × List Byte) := do
  let (ride, bs) ← getNum 1 0 bs
  let (remove, bs) ← getFlag bs
  let (full, bs) ← getOpt getText bs
  let (short, bs) ← getOpt getText bs
  let (addr, bs) ← getOpt (getNum 1 0) bs
  let (c, bs) ← getOpt (getNum 2 0) bs
  let (p, bs) ← getOpt (getNum 2 0) bs
  let (walk, bs) ← getOpt (getNum 2 0) bs
  let (opens, bs) ← getOpt (getNum 2 0) bs
  let (auto, bs) ← getOpt getFlag bs
  let (cp, bs) ← getOpt (getNum 2 0) bs
  let (clp, bs) ← getOpt (getNum 2 0) bs
  let (st, bs) ← getOpt (getNum 2 0) bs
  let (da, bs) ← getOpt (getNum 2 0) bs
  let (td, bs) ← getOpt (getNum 2 0) bs
  let (tm, bs) ← getOpt (getNum 2 0) bs
  let fields : RideFields :=
    { fullName := full.value
      shortName := short.value.map fun t => if t.isEmpty then none else some t
      fieldAddress := addr.value, c := c.value, p := p.value, walk := walk.value
      opensAt := opens.value.map fun m => if m = 65535 then none else some m
      auto := auto.value.map (·.value)
      codePersist := cp.value, clearPersist := clp.value, stallTime := st.value, downAfter := da.value
      testDispatches := td.value, testMinutes := tm.value }
  let bad := remove.bad || full.bad || short.bad || addr.bad || c.bad || p.bad || walk.bad || opens.bad || auto.bad ||
    (auto.value.map (·.bad)).getD false || cp.bad || clp.bad || st.bad || da.bad || td.bad || tm.bad
  some (.confride ride remove.value fields bad, bs)

/-- LISTPASSES: ride number, window index with its presence byte, cursor. -/
def getListpasses (bs : List Byte) : Option (Request × List Byte) := do
  let (ride, bs) ← getNum 1 0 bs
  let (w, bs) ← getOpt (getNum 1 0) bs
  let (cursor, bs) ← getNum 3 0 bs
  some (.listpasses ride w.value cursor w.bad, bs)

/-- CONFBOARD: address, the REMOVE flag, KIND and ride number with their presence bytes. -/
def getConfboard (bs : List Byte) : Option (Request × List Byte) := do
  let (addr, bs) ← getNum 1 0 bs
  let (remove, bs) ← getFlag bs
  let (kind, bs) ← getOpt (getNum 1 0) bs
  let (ride, bs) ← getOpt (getNum 1 0) bs
  some (.confboard addr remove.value kind.value ride.value (remove.bad || kind.bad || ride.bad), bs)

/-- CONFPANE: address, pane, LIST, ROWS, PAGE_PASSES, SKIP_CLOSED, FIT. -/
def getConfpane (bs : List Byte) : Option (Request × List Byte) := do
  let (addr, bs) ← getNum 1 0 bs
  let (pane, bs) ← getNum 1 0 bs
  let (list, bs) ← getList (getNum 1 0) bs
  let (rows, bs) ← getNum 2 0 bs
  let (pp, bs) ← getNum 2 0 bs
  let (skip, bs) ← getFlag bs
  let (fit, bs) ← getNum 1 0 bs
  some (.confpane addr pane list rows pp skip.value fit skip.bad, bs)

/-- BOARDTEXT: address, line, action (SET 0, RELEASE 1), text, duration, BLINK flag. The last three have no presence byte
and a RELEASE carries their bytes too: a text with a length above 0 makes it carry a text, and its duration and BLINK are
not read (the model's choice, log 34). -/
def getBoardtext (bs : List Byte) : Option (Request × List Byte) := do
  let (addr, bs) ← getNum 1 0 bs
  let (line, bs) ← getNum 1 0 bs
  let (action, bs) ← getNum 1 0 bs
  let (text, bs) ← getText bs
  let (dur, bs) ← getNum 2 0 bs
  let (blink, bs) ← getFlag bs
  some (.boardtext addr line action text dur blink.value blink.bad, bs)

/-- A CONFNOTE entry: class, source, mask action, edge action. -/
def getNoteEntry (bs : List Byte) : Option (NoteEntry × List Byte) := do
  let (cls, bs) ← getNum 1 0 bs
  let (src, bs) ← getNum 1 0 bs
  let (mask, bs) ← getNum 1 0 bs
  let (edge, bs) ← getNum 1 0 bs
  some ({ cls, src, mask, edge }, bs)

/-- A CLEARNOTE entry: class, source. -/
def getClearEntry (bs : List Byte) : Option (ClearEntry × List Byte) := do
  let (cls, bs) ← getNum 1 0 bs
  let (src, bs) ← getNum 1 0 bs
  some ({ cls, src }, bs)

/-- Requests whose parameters are numbers of fixed widths: read them and name them. -/
def fixedRequest (widths : List Nat) (f : List Nat → Option Request) (bs : List Byte) : Option Request :=
  (whole id (getNums widths bs)).bind f

/-- The parameters of each class of the request catalogue; none when their length is not what the class calls for. -/
def parseParams (cls : Nat) (bs : List Byte) : Option Request :=
  match cls with
  | 1 => fixedRequest [3] (fun | [v] => some (.setclock v) | _ => none) bs
  | 2 => fixedRequest [2, 2] (fun | [a, b] => some (.openday a b) | _ => none) bs
  | 3 => fixedRequest [] (fun _ => some .closeday) bs
  | 4 => whole Request.confpark (getParams bs)
  | 5 => whole id (getConfride bs)
  | 6 => fixedRequest [1, 1, 1, 1] (fun | [r, a, g, o] => some (.setride r a g o) | _ => none) bs
  | 7 => fixedRequest [1] (fun | [r] => some (.fieldinfo r) | _ => none) bs
  | 8 => fixedRequest [1, 1, 1, 2] (fun | [r, g, o, q] => some (.setqueue r g o q) | _ => none) bs
  | 9 => fixedRequest [1] (fun | [r] => some (.rideinfo r) | _ => none) bs
  | 10 => fixedRequest [1, 1, 1, 1, 1, 2]
      (fun | [r, g, o, a, b, c] => some (.setwindow r g o a b c) | _ => none) bs
  | 11 => fixedRequest [1, 1] (fun | [r, i] => some (.windowinfo r i) | _ => none) bs
  | 12 => fixedRequest [1, 4, 1, 1, 1, 1]
      (fun | [r, t, p, g, o, f] => some (.reserve r t p g o f) | _ => none) bs
  | 13 => fixedRequest [3, 1] (fun | [p, k] => some (.redeem p k) | _ => none) bs
  | 14 => fixedRequest [3] (fun | [p] => some (.void p) | _ => none) bs
  | 15 => fixedRequest [3] (fun | [p] => some (.lookup p) | _ => none) bs
  | 16 => whole id (getListpasses bs)
  | 17 => fixedRequest [4] (fun | [t] => some (.accountinfo t) | _ => none) bs
  | 18 => whole id (getConfboard bs)
  | 19 => whole id (getConfpane bs)
  | 20 => whole id (getBoardtext bs)
  | 21 => fixedRequest [1] (fun | [a] => some (.boardinfo a) | _ => none) bs
  | 22 => whole Request.confnote (getList getNoteEntry bs)
  | 23 => whole Request.clearnote (getList getClearEntry bs)
  | 24 => fixedRequest [1] (fun | [c] => some (.noteinfo c) | _ => none) bs
  | 25 => fixedRequest [] (fun _ => some .status) bs
  | 26 => fixedRequest [1] (fun | [k] => some (.restart k) | _ => none) bs
  | _ => none

/-- The port's first two checks on a taken frame (R174). -/
def Frame.parse (f : Frame) : Parsed :=
  if f.cls = 0 ∨ 26 < f.cls then .unknownClass
  else match parseParams f.cls f.params with
    | none => .badLength
    | some r => .request r

/-- The CLASS of a request (the request catalogue of 09). -/
def requestClass : Request → Nat
  | .setclock _ => 1 | .openday _ _ => 2 | .closeday => 3 | .confpark _ => 4 | .confride _ _ _ _ => 5
  | .setride _ _ _ _ => 6 | .fieldinfo _ => 7 | .setqueue _ _ _ _ => 8 | .rideinfo _ => 9
  | .setwindow _ _ _ _ _ _ => 10 | .windowinfo _ _ => 11 | .reserve _ _ _ _ _ _ => 12 | .redeem _ _ => 13
  | .void _ => 14 | .lookup _ => 15 | .listpasses _ _ _ _ => 16 | .accountinfo _ => 17 | .confboard _ _ _ _ _ => 18
  | .confpane _ _ _ _ _ _ _ _ => 19 | .boardtext _ _ _ _ _ _ _ => 20 | .boardinfo _ => 21 | .confnote _ => 22
  | .clearnote _ => 23 | .noteinfo _ => 24 | .status => 25 | .restart _ => 26

/-- A request that no row of the opcode table spells: an unknown action or kind of restart, undefined flag bits, or
fields that do not go together. Its frame is taken by any row of its class (log 5). -/
def requestIrregular : Request → Bool
  | .confride _ remove fields bad => bad || (remove && fields ≠ {})
  | .setride _ action _ _ => 7 ≤ action
  | .reserve _ _ _ _ _ flags => 2 ≤ flags
  | .listpasses _ _ _ bad => bad
  | .confboard _ remove kind ride bad => bad || (remove && (kind.isSome || ride.isSome))
  | .confpane _ _ _ _ _ _ _ bad => bad
  | .boardtext _ _ action text dur blink bad =>
      bad || 2 ≤ action || (action = 1 && (!text.isEmpty || dur ≠ 0 || blink))
  | .restart kind => 2 ≤ kind
  | _ => false

/-! ### Codes of replies (R177, R183) -/

/-- The outcome codes (R177). -/
def Code.number : Code → Nat
  | .done => 0 | .clamped => 1 | .guardFalse => 2 | .busy => 3 | .malformed => 4 | .badState => 5 | .noDay => 6
  | .noTime => 7 | .noData => 8 | .unknownRide => 9 | .unknownBoard => 10 | .unknownPass => 11 | .rideDown => 12
  | .rideNotReady => 13 | .rideClosed => 14 | .soldOut => 15 | .bookFull => 16 | .accountFull => 17
  | .activeLimit => 18 | .duplicate => 19 | .dailyLimit => 20 | .tooEarly => 21 | .tooLate => 22
  | .alreadyUsed => 23 | .voidedPass => 24

/-- The byte of the clock state in the replies to SETCLOCK, STATUS and RESTART. R183 names no kind, width or codes for it: one
byte, the values in the order in which R1 lists them (DESIGN CHOICE, log 42). -/
def ClockState.number : ClockState → Nat
  | .unset => 0 | .running => 1

def DayState.number : DayState → Nat
  | .idle => 0 | .opening => 1 | .day => 2 | .after => 3

def Link.number : Link → Nat
  | .never => 0 | .up => 1 | .lost => 2

def PassState.number : PassState → Nat
  | .issued => 0 | .flex => 1 | .redeemed => 2 | .expired => 3 | .voided => 4

def Presence.number : Presence → Nat
  | .unknown => 0 | .present => 1 | .silent => 2

def Fit.number : Fit → Nat
  | .fullFirst => 0 | .shortFirst => 1

def Edge.number : Edge → Nat
  | .rise => 0 | .both => 1

/-! ### Reply items made of several fields -/

/-- The day plan of the OPENDAY and STATUS replies. -/
def putPlan (p : Option Plan) : List Byte :=
  putOptNum 2 (p.map (·.openMin)) ++ putOptNum 2 (p.map (·.closeMin)) ++ putOptNum 2 (p.map (·.len)) ++
  putOptNum 2 (p.map (·.n))

/-- The park parameter set in a reply; the width of K and BLINK_DUTY is log 40's. -/
def putParams (p : Params) : List Byte :=
  [p.k, p.l, p.step, p.postMax, p.hyst, p.jump, p.staleHold, p.silencePolls, p.lead, p.gEarly, p.gLate, p.a, p.d,
    p.slotLow, p.passInterval, p.blinkPasses, p.blinkDuty].flatMap (putNum 2) ++ p.text1 ++ p.text2 ++ p.text3

/-- The configuration record in a reply, in which SHORT_NAME and OPENS_AT may be absent of themselves (R19); the width of P
is log 40's. -/
def putConfig (c : Option RideConfig) : List Byte :=
  putOptText (c.map (·.fullName)) ++ putOptText (c.bind (·.shortName)) ++ putOptNum 1 (c.map (·.fieldAddress)) ++
  putOptNum 2 (c.map (·.c)) ++ putOptNum 2 (c.map (·.p)) ++ putOptNum 2 (c.map (·.walk)) ++
  putOptNum 2 (c.bind (·.opensAt)) ++ putOptFlag (c.map (·.auto)) ++ putOptNum 2 (c.map (·.codePersist)) ++
  putOptNum 2 (c.map (·.clearPersist)) ++ putOptNum 2 (c.map (·.stallTime)) ++ putOptNum 2 (c.map (·.downAfter)) ++
  putOptNum 2 (c.map (·.testDispatches)) ++ putOptNum 2 (c.map (·.testMinutes))

/-- The published wait of a reply: PRESENT, which a reply without the wait lacks, then VALUE and PLUS (R64, R82). -/
def putWait (w : Option (Option Wait)) : List Byte :=
  putOptFlag (w.map (·.isSome)) ++ putOptNum 2 (w.join.map (·.value)) ++ putOptFlag (w.join.map (·.plus))

/-- The four baseline values of FIELDINFO (R58). -/
def putCounters (c : Option Counters) : List Byte :=
  putOptNum 2 (c.map (·.entered)) ++ putOptNum 2 (c.map (·.standby)) ++ putOptNum 2 (c.map (·.ret)) ++
  putOptNum 2 (c.map (·.dispatches))

/-- The pass record of LOOKUP and LISTPASSES replies, 23 bytes (R184). -/
def putPass (np : Nat × Pass) : List Byte :=
  let p := np.2
  putNum 3 np.1 ++ putNum 1 p.ride ++ putNum 1 p.window ++ putNum 4 p.account ++ putNum 1 p.party ++
  putNum 1 p.remaining ++ putNum 1 p.state.number ++ putNum 2 p.issuedAt ++ putOptNum 2 p.firstUse ++
  putOptNum 2 p.flexAt ++ putOptNum 2 p.retiredAt

/-- A window entry of WINDOWINFO (R100). -/
def putWindow (w : Window) : List Byte :=
  putNum 1 w.index ++ putNum 2 w.startMin ++ putNum 2 w.endMin ++ putNum 2 w.graceEnd ++ putNum 2 w.cap ++
  putNum 2 w.issued ++ putNum 2 w.hold ++ putNum 2 (w.cap - w.issued - w.hold) ++ putFlag w.started ++
  putFlag w.interrupted ++ putFlag w.resolved ++ putNum 2 w.passes.length

/-- The number of an OVERRIDE_LEFT, 0 for UNTIL_RELEASED (R183). -/
def Left.number : Left → Nat
  | .minutes n => n
  | .untilReleased => 0

/-- OVERRIDE and OVERRIDE_LEFT, each with its presence byte. -/
def putOverride (o : Option Override) : List Byte :=
  putOptLine (o.map (·.text)) ++ putOptNum 2 (o.map (·.left.number))

/-- The pane record of a CONFPANE reply: the items CONFPANE gives, without PAGE and PAGE_COUNT, which R156 names apart (the
model's choice, log 35). -/
def putPane (p : Option Pane) : List Byte :=
  putOptList (putNum 1) (p.map (·.list)) ++ putOptNum 2 (p.map (·.rows)) ++ putOptNum 2 (p.map (·.pagePasses)) ++
  putOptFlag (p.map (·.skipClosed)) ++ putOptNum 1 (p.map (·.fit.number))

/-- A pane record of BOARDINFO, with PAGE and PAGE_COUNT; the width of PAGE is log 40's. -/
def putPaneShown (p : Option Pane) : List Byte :=
  putPane p ++ putOptNum 2 (p.map (·.page)) ++ putOptNum 2 (p.map (·.pageCount))

def putLine (l : Line) : List Byte :=
  putOverride l.override ++ putNum 2 l.blink ++ putOptNum 1 l.shown ++ putOptLine l.lastText

/-- The code of a KIND (R183: the order in which R134 lists them). -/
def Kind.number : Kind → Nat
  | .ride _ => 0
  | .hub _ _ => 1

/-- The RIDE of a KIND, which a HUB board does not have. -/
def Kind.ride? : Kind → Option Nat
  | .ride r => some r
  | .hub _ _ => none

/-- The two panes of a KIND, which a RIDE board does not have. -/
def Kind.panes : Kind → Option Pane × Option Pane
  | .ride _ => (none, none)
  | .hub p q => (some p, some q)

/-- KIND and RIDE. -/
def putKind (k : Option Kind) : List Byte := putOptNum 1 (k.map (·.number)) ++ putOptNum 1 (k.bind (·.ride?))

/-- The part of a BOARDINFO reply that one board has: the address, its record, and whether its frame is outstanding (R156). -/
def putBoard (x : Option (Nat × Board × Bool)) : List Byte :=
  let b := x.map (·.2.1)
  putOptNum 1 (x.map (·.1)) ++ putKind (b.map (·.kind)) ++ putOptNum 1 (b.map (·.presence.number)) ++
  putOptNum 2 (b.map (·.misses)) ++ putOptNum 1 (b.bind (·.lastStatus)) ++ putOptFlag (b.map (·.level)) ++
  putPaneShown (b.bind (·.kind.panes.1)) ++ putPaneShown (b.bind (·.kind.panes.2)) ++
  putOptList putLine (b.map (·.lines)) ++ putOptFlag (x.map (·.2.2))

/-- An entry of the list of all boards (R156). -/
def putBoardEntry (ab : Nat × Board) : List Byte :=
  putNum 1 ab.1 ++ putNum 1 ab.2.kind.number ++ putNum 1 ab.2.presence.number ++ putNum 2 ab.2.misses ++
  putOptNum 1 ab.2.lastStatus ++ putFlag ab.2.level

/-- What a BOARDINFO reply shows of all boards: a pass in progress, the pass-due flag, the frame outstanding, and the boards
(R156). -/
structure BoardsView where
  inPass : Bool
  due : Bool
  frame : Option (Nat × Nat)
  boards : List (Nat × Board)
deriving DecidableEq, Repr

/-- The part of a BOARDINFO reply that address 0 has (R156). -/
def putBoards (x : Option BoardsView) : List Byte :=
  putOptFlag (x.map (·.inPass)) ++ putOptFlag (x.map (·.due)) ++ putOptNum 1 ((x.bind (·.frame)).map (·.1)) ++
  putOptNum 1 ((x.bind (·.frame)).map (·.2)) ++ putOptList putBoardEntry (x.map (·.boards))

/-- The part of a FIELDINFO reply that one ride has: its number, its record, and whether it is being polled (R58). -/
def putField (x : Option (Nat × FieldRecord × Bool)) : List Byte :=
  let f := x.map (·.2.1)
  putOptNum 1 (x.map (·.1)) ++ putOptNum 1 (f.map (·.address)) ++ putOptNum 1 (f.map (·.link.number)) ++
  putOptNum 2 (f.map (·.misses)) ++ putOptFlag (f.map (·.baseValid)) ++
  putCounters (f.bind fun f => if f.baseValid then some f.base else none) ++ putOptNum 1 (f.bind (·.lastCode)) ++
  putOptNum 2 (f.map (·.gap)) ++ putOptFlag (x.map (·.2.2))

/-- An entry of the list of all rides' field records (R58). -/
def putFieldEntry (x : Nat × FieldRecord) : List Byte :=
  putNum 1 x.1 ++ putNum 1 x.2.link.number ++ putNum 2 x.2.misses ++ putOptNum 1 x.2.lastCode ++ putNum 2 x.2.gap

/-- The items of RIDEINFO, block by block (R82). -/
def putRideView (v : Option RideView) : List Byte :=
  let u := v.map (·.unit)
  let e := v.map (·.est)
  putOptNum 1 (v.map (·.ride)) ++ putConfig (u.map (·.config)) ++ putOptNum 1 (u.map (·.state.number)) ++
  putOptNum 3 (u.bind (·.since)) ++ putOptNum 2 (u.map (·.stall)) ++ putOptNum 2 (u.map (·.fault)) ++
  putOptNum 2 (u.map (·.clear)) ++ putOptFlag (u.map (·.codeLevel)) ++ putOptNum 2 (u.map (·.testDispatches)) ++
  putOptNum 2 (u.map (·.testMinutes)) ++ putOptNum 1 (v.map (·.link.number)) ++ putOptNum 1 (v.bind (·.lastCode)) ++
  putOptNum 2 (e.map (·.q)) ++ putOptNum 2 (e.map (·.s)) ++ putOptNum 2 (e.map (·.sr)) ++ putOptNum 2 (e.map (·.m)) ++
  putOptNum 2 (e.map (·.mr)) ++ putOptFlag (e.map (·.eligible)) ++ putOptNum 2 (e.map (·.heldMin)) ++
  putOptNum 2 (e.map (·.staleTimer)) ++ putOptFlag (e.map (·.stale)) ++ putOptFlag (e.map (·.renew)) ++
  putOptNum 2 (e.map (·.wr)) ++ putOptNum 2 (e.map (·.wt)) ++ putWait (e.map (·.wait))

/-- The items of WINDOWINFO (R100). -/
def putWindowView (v : Option WindowView) : List Byte :=
  putOptNum 1 (v.map (·.ride)) ++ putOptNum 2 (v.map (·.count)) ++ putOptNum 2 (v.bind (·.len)) ++
  putOptNum 3 (v.map (·.f)) ++ putOptNum 3 (v.map (·.u)) ++ putOptFlag (v.map (·.flexLevel)) ++
  putOptFlag (v.map (·.slotsLevel)) ++ putOptNum 1 (v.bind (·.lead)) ++ putOptList putWindow (v.map (·.windows)) ++
  putOptNum 1 (v.bind (·.next))

/-- The first and last index and the windows of a SETWINDOW reply (R89). -/
def putRange (x : Option (Nat × Nat × List Window)) : List Byte :=
  putOptNum 1 (x.map (·.1)) ++ putOptNum 1 (x.map (·.2.1)) ++
  putOptList (fun w : Window => putNum 1 w.index ++ putNum 2 w.cap ++ putNum 2 w.issued ++ putNum 2 w.hold)
    (x.map (·.2.2))

/-- STATE and STATE_SINCE of a SETRIDE reply, each with its presence byte (R41). -/
def putShownState (x : Option (RideState × Option Nat)) : List Byte :=
  putOptNum 1 (x.map (·.1.number)) ++ putOptNum 3 (x.bind (·.2))

def putStatus (v : StatusView) : List Byte :=
  putNum 3 v.clock ++ putNum 1 v.clockState.number ++ putNum 2 v.hold ++ putNum 1 v.day.number ++
  putFlag v.closePassed ++ putPlan v.plan ++ putFlag v.openPending ++ putNum 2 v.rides ++ putNum 2 v.boards ++
  putNum 4 v.serial ++ putNum 2 v.passes ++ putNum 2 v.active ++ putNum 2 v.accounts ++ putNum 2 v.retired ++
  putFlag v.bookLevel ++ putFlag v.sendWaiting ++ putNum 2 v.sendLength ++ putNum 2 v.inputs ++ putNum 2 v.outputs ++
  putNum 2 v.crcErrors ++ putNum 2 v.timeouts ++ putNum 2 v.overruns

/-- An entry of NOTEINFO: the level image is absent for an event class, and the latched CLOCK, level after and detail while
PENDING is clear (R167). -/
def putSlot (level : Bool) (x : Slot × Bool) : List Byte :=
  let l := x.1.pending
  putFlag l.isSome ++ putFlag x.1.mask ++ putFlag x.1.sent ++
  putOptFlag (if level then some x.1.image else none) ++ putFlag x.2 ++
  putOptNum 3 (l.map (·.clock)) ++ putOptFlag (l.map (·.level)) ++ putOptNum 1 (l.map (·.detail))

/-- The seven edge settings, in the order of R159. -/
def putEdges (e : Option Edges) : List Byte :=
  putOptNum 1 (e.map (·.stall.number)) ++ putOptNum 1 (e.map (·.code.number)) ++ putOptNum 1 (e.map (·.link.number)) ++
  putOptNum 1 (e.map (·.slots.number)) ++ putOptNum 1 (e.map (·.flex.number)) ++ putOptNum 1 (e.map (·.board.number)) ++
  putOptNum 1 (e.map (·.book.number))

/-- An entry of the list of classes in a NOTEINFO reply; the image count is absent for an event class (R167). -/
def putClassCount (c : ClassCount) : List Byte := putNum 2 c.pending ++ putNum 2 c.unmasked ++ putOptNum 2 c.images

/-- The part of a NOTEINFO reply that ALL has: the edge settings, the send-waiting flag, the length of the send list, and the
list of the eleven classes (R167). As a list it takes two bytes where it is absent, and so leaves room for the 64 entries of
class BOARD within a LENGTH of 1,000 (R169; what is a list: log 12). -/
def putNoteAll (x : Option (Edges × Bool × Nat × List ClassCount)) : List Byte :=
  putEdges (x.map (·.1)) ++ putOptFlag (x.map (·.2.1)) ++ putOptNum 2 (x.map (·.2.2.1)) ++
  putOptList putClassCount (x.map (·.2.2.2))

/-- The part of a NOTEINFO reply that a named class has: the class, its edge setting, and its entries, of which a class has
at least one (R167). -/
def putNoteClass (x : Option (Nat × Option Edge × List (Slot × Bool))) : List Byte :=
  let entries := x.bind fun y => if y.2.2.isEmpty then none else some y.2.2
  let edge := x.bind (·.2.1)
  putOptNum 1 (x.map (·.1)) ++ putOptNum 1 (edge.map (·.number)) ++ putOptList (putSlot edge.isSome) entries

/-- The fields of a RESERVE reply after the ride number (R184, offsets 2 to 24). -/
def putReserve (v : ReserveView) : List Byte :=
  putOptNum 3 v.pass ++ putOptNum 1 v.window ++ putOptNum 2 v.startMin ++ putOptNum 2 v.endMin ++ putOptNum 1 v.party ++
  putOptNum 2 v.t ++ putOptNum 3 v.conflict ++ putOptNum 1 (v.ride.map (·.number))

/-- The fields of a REDEEM reply after the pass number (R184, offsets 4 to 24). -/
def putRedeem (v : RedeemView) : List Byte :=
  putOptNum 1 v.admitted ++ putOptNum 1 v.ride ++ putOptNum 1 v.window ++ putOptNum 1 (v.state.map (·.number)) ++
  putOptNum 1 v.remaining ++ putOptNum 2 v.firstUse ++ putOptNum 2 v.startMin ++ putOptNum 2 v.endMin ++
  putOptNum 1 (v.rideState.map (·.number))

/-- The fields of a VOID reply after the pass number (R128). -/
def putVoid (v : VoidView) : List Byte :=
  putOptNum 1 v.ride ++ putOptNum 1 v.window ++ putOptNum 1 (v.state.map (·.number)) ++ putOptNum 1 v.remaining ++
  putOptNum 1 v.returned

/-- The account of ACCOUNTINFO, before which R131 puts one presence flag. -/
def putAccount (x : Nat × Account × List (Nat × Pass)) : List Byte :=
  putNum 4 x.1 ++ putNum 2 x.2.1.issuedToday ++ putNum 2 x.2.1.firstSeen ++
  putList (fun np : Nat × Pass => putNum 3 np.1 ++ putNum 1 np.2.ride ++ putNum 1 np.2.window ++
    putNum 1 np.2.state.number ++ putNum 1 np.2.remaining) x.2.2

/-- START, END and GRACE_END of LOOKUP (R129). -/
def putTimes (t : Option (Nat × Nat × Nat)) : List Byte :=
  putOptNum 2 (t.map (·.1)) ++ putOptNum 2 (t.map (·.2.1)) ++ putOptNum 2 (t.map (·.2.2))

/-- A code byte in front of the fields of a reply (R177). -/
def putCode (o : Code) : List Byte := putNum 1 o.number

/-- The parameters of a reply: the outcome byte, then the items the owning rule lists (R177, R183). A class has one layout:
the replies to FIELDINFO, BOARDINFO and NOTEINFO have the items of one and of all, and those that are not given are absent. -/
def ReplyBody.params : ReplyBody → List Byte
  | .bare => putCode .malformed
  | .setclock o c cs h => putCode o ++ putNum 3 c ++ putNum 1 cs.number ++ putNum 2 h
  | .openday o p => putCode o ++ putPlan p
  | .closeday o => putCode o
  | .confpark o p => putCode o ++ putParams p
  | .confride o c => putCode o ++ putConfig c
  | .setride o r x => putCode o ++ putNum 1 r ++ putShownState x
  | .fieldOne o x => putCode o ++ putField x ++ putOptList putFieldEntry none
  | .fieldAll o xs => putCode o ++ putField none ++ putOptList putFieldEntry (some xs)
  | .setqueue o r x => putCode o ++ putNum 1 r ++ putOptNum 2 (x.map (·.1)) ++ putWait (x.map (·.2))
  | .rideinfo o v => putCode o ++ putRideView v
  | .setwindow o r x => putCode o ++ putNum 1 r ++ putRange x
  | .windowinfo o v => putCode o ++ putWindowView v
  | .reserve o r v => putCode o ++ putNum 1 r ++ putReserve v
  | .redeem o p v => putCode o ++ putNum 3 p ++ putRedeem v
  | .void o p v => putCode o ++ putNum 3 p ++ putVoid v
  | .lookup o x t => putCode o ++ putOpt 23 putPass x ++ putTimes t
  | .listpasses o page next => putCode o ++ putOptList putPass page ++ putOptNum 3 next
  | .accountinfo o x => putCode o ++ putOpt 9 putAccount x
  | .confboard o x => putCode o ++ putOptNum 1 (x.map (·.1)) ++ putKind (x.map (·.2))
  | .confpane o a n p => putCode o ++ putNum 1 a ++ putNum 1 n ++ putPane p
  | .boardtext o a l x => putCode o ++ putNum 1 a ++ putNum 1 l ++ putOverride x
  | .boardOne o x => putCode o ++ putBoard x ++ putBoards none
  | .boardAll o inPass due frame bs => putCode o ++ putBoard none ++ putBoards (some ⟨inPass, due, frame, bs⟩)
  | .confnote o a n => putCode o ++ putNum 2 a ++ putNum 2 n
  | .clearnote o n => putCode o ++ putNum 2 n
  | .noteAll o e w n cs => putCode o ++ putNoteAll (some (e, w, n, cs)) ++ putNoteClass none
  | .noteOne o c e xs => putCode o ++ putNoteAll none ++ putNoteClass (some (c, e, xs))
  | .status o v => putCode o ++ putStatus v
  | .restart o k c cs d => putCode o ++ putNum 1 k ++ putNum 3 c ++ putNum 1 cs.number ++ putNum 1 d.number

/-- The CLASS byte of a reply: the request's CLASS with its top bit set, or 0x80 for an unknown CLASS, which the model
writes as request CLASS 0 (R169, R174). -/
def replyClass (cls : Nat) : Nat := 128 + cls

/-- An operations frame: START, LENGTH, TAG, CLASS, parameters, CHECK (R169). -/
def opsFrame (tag cls : Nat) (params : List Byte) : List Byte :=
  let covered := putNum 2 (params.length + 2) ++ putNum 1 tag ++ putNum 1 cls ++ params
  [0x5A#8] ++ covered ++ crcBytes covered

/-- The NOTICE parameters (R184). -/
def putNotice (id : SlotId) (l : Latched) : List Byte :=
  putNum 1 id.cls.number ++ putNum 1 id.src ++ putNum 3 l.clock ++ putFlag l.level ++ putNum 1 l.detail

/-- The bytes a record is sent as (R169, R175, R184). -/
def Record.bytes : Record → List Byte
  | .reply tag cls body => opsFrame tag (replyClass cls) body.params
  | .notice id l => opsFrame 0 255 (putNotice id l)

/-! ### Field link and board link (R184) -/

/-- A poll: 0xC3, FIELD_ADDRESS, check over the address. -/
def pollFrame (address : Nat) : List Byte :=
  [0xC3#8] ++ putNum 1 address ++ crcBytes (putNum 1 address)

/-- A report record read from a good reply (R50). -/
structure Report where
  code : Nat
  counters : Counters
deriving DecidableEq, Repr

/-- Judge the thirteen bytes of a reply to a poll of `address`: a report when the start byte, the check and the ADDRESS
are right (R45, R184). -/
def judgeReport (address : Nat) (bs : List Byte) : Option Report :=
  match bs with
  | start :: rest =>
    if start = 0xA5#8 ∧ rest.length = 12 ∧ rest.drop 10 = crcBytes (rest.take 10) then
      match getNums [1, 1, 2, 2, 2, 2] (rest.take 10) with
      | some ([a, code, e, st, re, di], []) =>
          if a = address then some { code, counters := { entered := e, standby := st, ret := re, dispatches := di } }
          else none
      | _ => none
    else none
  | [] => none

/-- The blink attribute byte: 0 steady; 1, 2 or 3 for a duty of 25, 50 or 75 percent. -/
def blinkByte (on : Bool) (duty : Nat) : Nat := if on then duty / 25 else 0

/-- A line frame: 0x96, address, line, blink attribute, 20 characters, check. -/
def lineFrame (board line attr : Nat) (text : Text) : List Byte :=
  let covered := putNum 1 board ++ putNum 1 line ++ putNum 1 attr ++ text
  [0x96#8] ++ covered ++ crcBytes covered

/-! ### Texts -/

/-- A character of a text written in the model. -/
def chr (c : Char) : Byte := BitVec.ofNat 8 c.toNat

/-- A text of given characters. -/
def txt (cs : List Char) : Text := cs.map chr

/-- Printable characters are 0x20 to 0x7E (00_scope, Quantities). -/
def printable (t : Text) : Bool := t.all fun b => 0x20 ≤ b.toNat && b.toNat ≤ 0x7E

/-- Filled out with spaces to a width, set at the left (R13, R146, R154). -/
def fillTo (n : Nat) (t : Text) : Text := t ++ List.replicate (n - t.length) (chr ' ')

/-- Led with spaces to a width, set at the right (R149). -/
def leadTo (n : Nat) (t : Text) : Text := List.replicate (n - t.length) (chr ' ') ++ t

/-- One decimal digit. -/
def digit (n : Nat) : Byte := BitVec.ofNat 8 (48 + n % 10)

/-- A number below 1,000 in decimal without leading zeros (R147). -/
def decimal (n : Nat) : Text :=
  if n < 10 then [digit n]
  else if n < 100 then [digit (n / 10), digit n]
  else [digit (n / 100), digit (n / 10), digit n]

/-- A number in two digits (R150). -/
def twoDigits (n : Nat) : Text := [digit (n / 10), digit n]

/-- A minute of the day written hh:mm (R148). -/
def hhmm (m : Nat) : Text := twoDigits (m / 60) ++ [chr ':'] ++ twoDigits (m % 60)

end Sys2Proof.Machine
end

