-- ==== Sys2Proof/Machine/Boards.lean ====
section
/-! DEFINITION. The Board Composer but for the composition of lines: fresh records, presence and the BOARD level, blink,
paging, passes and the board line, overrides (R134 to R145, R151 to R155). -/

namespace Sys2Proof.Machine

/-! ### Fresh records (R134 to R136) -/

def Line.fresh : Line := { override := none, blink := 0, shown := none, lastText := none }

def Pane.fresh : Pane :=
  { list := [], rows := 8, pagePasses := 4, skipClosed := false, fit := .fullFirst, page := 0, pageCount := 0 }

/-- Lines of a board of a kind (R135). -/
def Kind.lineCount : Kind → Nat
  | .ride _ => 3
  | .hub _ _ => 16

/-- Fresh line records for a kind. -/
def Kind.freshLines (k : Kind) : List Line := List.replicate k.lineCount Line.fresh

/-- A board record at creation (R134). -/
def Board.fresh (k : Kind) : Board :=
  { kind := k, lines := k.freshLines, presence := .unknown, misses := 0, lastStatus := none, level := false }

/-- The rides a board names: the ride of a RIDE board, the pane lists of a HUB board (R20, R134). -/
def Kind.names (k : Kind) (r : Nat) : Bool :=
  match k with
  | .ride r' => r' = r
  | .hub p q => p.list.contains r || q.list.contains r

/-! ### Blink (R152) -/

/-- A line showing the ride has its BLINK set. -/
def Line.blinkFor (passes r : Nat) (l : Line) : Line := if l.shown = some r then { l with blink := passes } else l

/-- A report of ride `r` sets BLINK on every line of every board whose SHOWN is `r` (R152). -/
def blinkRide (r : Nat) (s : State) : State :=
  { s with boards := { s.boards with
      table := s.boards.table.each fun _ b =>
        { b with lines := b.lines.map (Line.blinkFor s.time.params.blinkPasses r) } } }

/-! ### Presence and the BOARD level (R144, R145) -/

/-- The condition the BOARD level is judged by (R145). -/
def Board.faulty (b : Board) : Bool :=
  b.presence = .silent || (match b.lastStatus with | none => false | some v => v ≠ 0)

/-- The BOARD level of a board is judged, and a rise or fall is reported with LAST_STATUS, 0 when absent (R145, R162). -/
def judgeBoard (a : Nat) (s : State) : State :=
  match s.boards.table.find a with
  | none => s
  | some b =>
      if b.faulty = b.level then s
      else reportLevel .board a b.faulty (b.lastStatus.getD 0) (s.modBoard a fun b => { b with level := b.faulty })

/-- Take a change of presence to a board, judging the level if PRESENCE or LAST_STATUS changed (R145). -/
def takePresence (a : Nat) (f : Board → Board) (s : State) : State :=
  match s.boards.table.find a with
  | none => s
  | some b =>
      let s' := s.modBoard a f
      if (f b).presence = b.presence ∧ (f b).lastStatus = b.lastStatus then s' else judgeBoard a s'

/-- A status byte is taken (R144). -/
def Board.takeStatus (status : Nat) (b : Board) : Board :=
  { b with misses := 0, presence := .present, lastStatus := some status }

/-- A miss is taken (R144). -/
def Board.takeMiss (b : Board) : Board :=
  let m := saturate 255 (b.misses + 1)
  { b with misses := m, presence := if Config.boardMisses ≤ m then .silent else b.presence }

/-! ### Paging (R151) -/

/-- The effective list of a pane: CLOSED rides are left out when SKIP_CLOSED is set. -/
def Pane.effective (units : Table RideUnit) (p : Pane) : List Nat :=
  if p.skipClosed then
    p.list.filter fun r => match units.find r with | some u => u.state ≠ .closed | none => true
  else p.list

/-- The page count of an effective list: ceil(length / ROWS), and 1 for an empty list. -/
def Pane.pages (p : Pane) (list : List Nat) : Nat := if list.isEmpty then 1 else ceilDiv list.length p.rows

/-- The three steps of R151 at the start of a pass. -/
def Pane.advance (units : Table RideUnit) (p : Pane) : Pane :=
  let n := p.pages (p.effective units)
  let page := p.page % n
  if p.pagePasses ≤ p.pageCount then { p with page := (page + 1) % n, pageCount := 1 }
  else { p with page := page, pageCount := saturate 255 (p.pageCount + 1) }

/-- The paging of a board's panes. -/
def Kind.advance (units : Table RideUnit) : Kind → Kind
  | .ride r => .ride r
  | .hub p q => .hub (p.advance units) (q.advance units)

/-! ### Passes and the board line (R140 to R143) -/

/-- The configured board of lowest address above `a` (R141). -/
def boardAbove (t : Table Board) (a : Nat) : Option Nat := (Table.keys t).find? (a < ·)

/-- The next line to send after line `l` of board `a`: the next of its lines, or line 1 of the board above (R141). -/
def nextLine (t : Table Board) (a l : Nat) : Option (Nat × Nat) :=
  match t.find a with
  | some b => if l < b.kind.lineCount then some (a, l + 1) else (boardAbove t a).map (·, 1)
  | none => (boardAbove t a).map (·, 1)

/-- A board removed during a pass is not chosen again in it, whatever is created at its address: a pass that stands at the
board stands past its last line (R141). -/
def passOver (a : Nat) (s : State) : State :=
  match s.boards.pass with
  | some (b, _) => if b = a then { s with boards := { s.boards with pass := some (a, Config.boardLines) } } else s
  | none => s

/-- A pass starts: the interval timer from 0, the due flag clear, every pane advanced; with no board it ends at once
(R140, R141). -/
def startPass (s : State) : State :=
  { s with boards := { s.boards with
      timer := 0, due := false, startOwed := false,
      table := s.boards.table.each fun _ b => { b with kind := b.kind.advance s.units },
      pass := if s.boards.table.isEmpty then none else some (0, 0) } }

/-- The pass in progress ends, and the next one starts when it is due (R140). -/
def endPass (s : State) : State :=
  let s' := { s with boards := { s.boards with pass := none } }
  if s.boards.due then startPass s' else s'

/-- The next choice of R141 is made once a frame has ended: the pass ends when no line is left. -/
def chooseNext (s : State) : State :=
  match s.boards.pass with
  | none => s
  | some (a, l) => match nextLine s.boards.table a l with
    | some _ => s
    | none => endPass s

/-- The outstanding line frame to a board is abandoned: the line stays reserved (R143). -/
def abandonFrame (a : Nat) (s : State) : State :=
  match s.boards.line with
  | .outstanding b _ => if b = a then { s with boards := { s.boards with line := .reserved } } else s
  | .idle | .reserved => s

/-- The interval timer has run for PASS_INTERVAL (R140). It does not run while a pass start is owed (R157). -/
def State.intervalOver (s : State) : Bool :=
  !s.boards.startOwed && s.time.params.passInterval ≤ s.boards.timer

/-- The interval timer expires (R140). -/
def intervalExpiry (s : State) : State :=
  if s.intervalOver then
    match s.boards.pass with
    | none => startPass s
    | some _ => { s with boards := { s.boards with due := true } }
  else s

/-- A pass starts if one is called for: none in progress, and the timer expired or a pass due (R140). -/
def passStartDue (s : State) : State :=
  match s.boards.pass with
  | some _ => s
  | none => if s.intervalOver || (s.boards.due && !s.boards.startOwed) then startPass s else s

/-- A byte is received on the board line (R142, R143): in an open window it is the status of the frame; otherwise it is
discarded. -/
def takeBoardByte (status : Byte) (s : State) : State :=
  match s.boards.line with
  | .outstanding a _ =>
      chooseNext (takePresence a (Board.takeStatus status.toNat)
        { s with boards := { s.boards with line := .idle } })
  | .idle | .reserved => s

/-- The reply window of the outstanding frame closes with no byte (R142, R144). -/
def takeBoardMiss (s : State) : State :=
  match s.boards.line with
  | .outstanding a _ =>
      chooseNext (takePresence a Board.takeMiss { s with boards := { s.boards with line := .idle } })
  | .idle | .reserved => s

/-- The reserved window of an abandoned frame closes: an owed pass starts, else the pass makes its next choice (R143). -/
def reservedWindowClose (s : State) : State :=
  match s.boards.line with
  | .reserved =>
      let s' := { s with boards := { s.boards with line := .idle } }
      if s.boards.startOwed then startPass s' else chooseNext s'
  | .idle | .outstanding _ _ => s

/-! ### Overrides (R155) -/

/-- An override whose OVERRIDE_LEFT is 0 expires. -/
def Line.expire (l : Line) : Line :=
  match l.override with
  | some { left := .minutes 0, .. } => { l with override := none }
  | _ => l

/-- A minute tick lowers a numeric OVERRIDE_LEFT by 1 and expires it at 0. -/
def Line.countDown (l : Line) : Line :=
  match l.override with
  | some { text := t, left := .minutes n } => Line.expire { l with override := some { text := t, left := .minutes (n - 1) } }
  | _ => l

/-- The Board Composer takes a minute tick (R16, R155). -/
def countOverrides (s : State) : State :=
  { s with boards := { s.boards with
      table := s.boards.table.each fun _ b => { b with lines := b.lines.map Line.countDown } } }

/-- An override expires on one line. -/
def expireOverride (a l : Nat) (s : State) : State := s.modBoard a fun b => b.modLine l Line.expire

end Sys2Proof.Machine
end

