-- ==== Sys2Proof/Machine/Flow.lean ====
section
/-! DEFINITION. The Flow Estimator: smoothing, the wait arithmetic, publication, and what it does with reports of other
blocks (R60 to R80). The minute tick, which calls back into the Ride State Unit, is in Machine/Ticks.lean. -/

namespace Sys2Proof.Machine

/-! ### Rates (R69, R70) -/

/-- The initial S of a ride (R70). -/
def initialS (c p : Nat) : Nat := c * (16 - p) / 120

/-- The initial SR of a ride (R70). -/
def initialSR (c p : Nat) : Nat := c * p / 120

/-- Smoothing of a rate `s` toward 8·m with gain `k`: D = 8·m − s, adjustment floor((D·k + 8) / 16), clamped to
0..32,767 (R69). Division of integers by 16 rounds toward minus infinity. -/
def smooth (k s m : Nat) : Nat :=
  let d : Int := 8 * (m : Int) - (s : Int)
  let adjustment : Int := (d * (k : Int) + 8) / 16
  saturate Config.rateMax ((s : Int) + adjustment).toNat

/-- An estimator record at creation (R60). -/
def Estimator.fresh (c p : Nat) : Estimator :=
  { q := 0, s := initialS c p, sr := initialSR c p, m := 0, mr := 0, eligible := false, heldMin := 0, staleTimer := 0,
    stale := false, renew := false, wr := 0, wt := 0, wait := none }

/-- An estimator record at the end of the opening erase (R83). -/
def Estimator.opened (c p : Nat) (e : Estimator) : Estimator :=
  { Estimator.fresh c p with staleTimer := e.staleTimer, stale := e.stale }

/-! ### The wait (R71 to R74) -/

/-- The raw wait WR (R71). -/
def rawWait (q s : Nat) : Nat :=
  if q = 0 then 0
  else if s < Config.rateLeast then Config.waitMax
  else saturate Config.waitMax (ceilDiv (8 * q) s)

/-- The target wait WT: WR plus WALK, plus HELD_MIN while HELD, saturating at 999 (R72). -/
def targetWait (wr walk : Nat) (state : RideState) (heldMin : Nat) : Nat :=
  saturate Config.waitMax (wr + walk + if state.isHeld then heldMin else 0)

/-- The candidate value of a target wait (R74). -/
def candidate (p : Params) (wt : Nat) : Wait :=
  if p.postMax ≤ wt then { value := p.postMax, plus := true }
  else { value := ceilDiv wt p.step * p.step, plus := false }

/-- A computation: WR and WT are stored, and the candidate comes with them (R60, R71 to R74). -/
def Estimator.compute (p : Params) (u : RideUnit) (e : Estimator) : Estimator × Wait :=
  let wr := rawWait e.q e.s
  let wt := targetWait wr u.config.walk u.state e.heldMin
  ({ e with wr := wr, wt := wt }, candidate p wt)

/-- Hysteresis lets the candidate through: it is far enough, PLUS differs, or exactly one of the two WR is 999 (R75). -/
def hysteresisPasses (p : Params) (old new : Wait) (oldWr newWr : Nat) : Bool :=
  p.hyst ≤ distance new.value old.value || new.plus ≠ old.plus ||
    ((newWr = Config.waitMax) != (oldWr = Config.waitMax))

/-! ### Publication (R79, R80) -/

/-- The published wait of a ride takes a value or becomes absent. A change is reported to the Board Composer, which
blinks the ride's lines (R79, R152); a change between present VALUEs of at least JUMP raises a JUMP event (R80). -/
def setWait (r : Nat) (w : Option Wait) (s : State) : State :=
  match s.ests.find r with
  | none => s
  | some e =>
      if e.wait = w then s
      else
        let s' := blinkRide r (s.modEst r fun e => { e with wait := w })
        match e.wait, w with
        | some old, some new =>
            if 0 < s.time.params.jump ∧ s.time.params.jump ≤ distance new.value old.value then
              reportEvent .jump r new.value s'
            else s'
        | _, _ => s'

/-- A computation that stores WR and WT and publishes nothing (R60, R76). -/
def computeOnly (r : Nat) (s : State) : State :=
  match s.units.find r with
  | some u => s.modEst r fun e => (e.compute s.time.params u).1
  | none => s

/-- A computation whose candidate is published at once, RENEW being cleared (R76). -/
def publishNow (r : Nat) (s : State) : State :=
  match s.units.find r, s.ests.find r with
  | some u, some e =>
      setWait r (some (e.compute s.time.params u).2)
        (s.modEst r fun e => { (e.compute s.time.params u).1 with renew := false })
  | _, _ => s

/-- Step 6 of a minute tick: the wait is computed, and its candidate published or not (R75). -/
def publishMinute (r : Nat) (s : State) : State :=
  match s.units.find r, s.ests.find r with
  | some u, some e =>
      let new := (e.compute s.time.params u).2
      let s' := s.modEst r fun e => { (e.compute s.time.params u).1 with renew := false }
      if !u.state.inService || e.stale then s'
      else match e.wait with
        | none => setWait r (some new) s'
        | some old =>
            if e.renew || hysteresisPasses s.time.params old new e.wr (e.compute s.time.params u).1.wr then
              setWait r (some new) s'
            else s'
  | _, _ => s

/-! ### Staleness (R77) -/

/-- STALE is set and the published wait becomes absent (R77). -/
def setStale (r : Nat) (s : State) : State :=
  setWait r none (s.modEst r fun e => { e with stale := true })

/-- The stale hold is reached by a LOST ride: STALE is set if it was clear (R77). -/
def staleCheck (r : Nat) (s : State) : State :=
  match s.poller.records.find r, s.ests.find r with
  | some f, some e =>
      if f.link = .lost ∧ e.stale = false ∧ s.time.params.staleHold ≤ e.staleTimer then setStale r s else s
  | _, _ => s

/-- Step 5 of a minute tick (R68, R77). -/
def staleMinute (r : Nat) (s : State) : State :=
  match s.poller.records.find r with
  | some f =>
      if f.link = .lost then
        staleCheck r (s.modEst r fun e => { e with staleTimer := saturate 255 (e.staleTimer + 1) })
      else s
  | none => s

/-! ### Reports of other blocks -/

/-- The Flow Estimator takes a state change report; the new STATE stands in the ride record (R76). A change into service
makes a computation whether STALE is set or not (R60). -/
def estimatorHears (r : Nat) (new : RideState) (s : State) : State :=
  let s := s.modEst r fun e =>
    let e := if new.isHeld then { e with heldMin := 0 } else e
    let e := if new = .closed then { e with q := 0 } else e
    if new = .opened ∨ new = .closing then e else { e with eligible := false }
  if new.inService then
    match s.ests.find r with
    | some e => if e.stale then computeOnly r s else publishNow r s
    | none => s
  else setWait r none s

/-- The Flow Estimator takes a link state change (R66, R77, R78). -/
def estimatorLink (r : Nat) (prev new : Link) (s : State) : State :=
  if new = .lost then
    let s := s.modEst r fun e => { e with eligible := false, staleTimer := 0 }
    if s.time.params.staleHold = 0 then setStale r s else s
  else if prev = .lost then
    s.modEst r fun e => { e with staleTimer := 0, renew := e.renew || e.stale, stale := false }
  else s

/-- The correction report of the Time Base clears ELIGIBLE of every ride (R67). -/
def clearEligible (s : State) : State :=
  { s with ests := s.ests.each fun _ e => { e with eligible := false } }

/-- A delta report's counts in one estimator record: Q in any STATE but CLOSED, M and MR in every STATE (R61, R65). -/
def Estimator.takeCounts (closed : Bool) (entered standby ret : Nat) (e : Estimator) : Estimator :=
  { e with
    q := if closed then e.q else saturate Config.queueMax (e.q + entered - standby)
    m := saturate Config.accumulatorMax (e.m + standby)
    mr := saturate Config.accumulatorMax (e.mr + ret) }

end Sys2Proof.Machine
end

