-- ==== Sys2Proof/Machine/Windows.lean ====
section
/-! DEFINITION. The Return Book's windows: grid, capacity, lead window, placement, marking, resolution but for its report
to the Ride State Unit, and the FLEX, SLOTS and BOOK levels (R84 to R99, R105, R106, R132). -/

namespace Sys2Proof.Machine

/-! ### The grid (R84, R85) -/

/-- CAP of the formula: floor(C·P·L / 960) (R85). -/
def capFormula (c p len : Nat) : Nat := c * p * len / 960

/-- Window `i` of a ride as the end of the opening builds it (R84, R85). -/
def Window.build (plan : Plan) (gLate c p i : Nat) : Window :=
  { index := i
    startMin := plan.openMin + plan.len * i
    endMin := plan.openMin + plan.len * i + plan.len
    graceEnd := plan.openMin + plan.len * i + plan.len + gLate
    cap := capFormula c p plan.len
    issued := 0, hold := 0, started := false, interrupted := false, resolved := false, passes := [] }

/-- The free guests of a window: CAP − ISSUED − HOLD (R84). -/
def Window.free (w : Window) : Nat := w.cap - w.issued - w.hold

/-- CAP is set to a value, or to ISSUED + HOLD where the value is below it (R88, R89). -/
def Window.setCap (v : Nat) (w : Window) : Window := { w with cap := max v (w.issued + w.hold) }

/-! ### Lead window and free sum (R97, R98) -/

/-- The lead window's place in the list of a ride: absent once the end of the grid has been taken (R86), and before that the
window that contains minute `m`, else the lowest that starts after it (R97). Where a CLOSEDAY discards the end of the grid,
R97's words go on (DESIGN CHOICE, log 41). -/
def leadIndex (b : RideBook) (m : Nat) : Option Nat :=
  if b.gridEnded then none
  else match b.windows.findIdx? fun w => w.startMin ≤ m ∧ m < w.endMin with
    | some i => some i
    | none => b.windows.findIdx? fun w => m < w.startMin

/-- The free sum over the lead window and the three after it, resolved windows not counted (R98). -/
def freeSum (b : RideBook) (m : Nat) : Nat :=
  match leadIndex b m with
  | none => 0
  | some i => ((((b.windows.drop i).take 4).filter fun w => !w.resolved).map Window.free).sum

/-- Every window of the ride is resolved, or it has none (R94). -/
def State.allResolved (s : State) (r : Nat) : Bool := (s.rideBook r).windows.all (·.resolved)

/-! ### Levels of the Return Book -/

/-- The condition of the SLOTS level of a ride (R98). -/
def State.slotsHold (s : State) (r : Nat) : Bool :=
  match s.units.find r with
  | none => false
  | some u => u.state.inService && freeSum (s.rideBook r) s.minute < s.time.params.slotLow

/-- The SLOTS level of a ride is judged (R99, R162). -/
def judgeSlots (r : Nat) (s : State) : State :=
  if s.slotsHold r = (s.rideBook r).slotsLevel then s
  else
    reportLevel .slots r (s.slotsHold r) (saturate 255 (freeSum (s.rideBook r) s.minute))
      (s.modBook r fun b => { b with slotsLevel := s.slotsHold r })

/-- The FLEX level of a ride is judged: it holds while U is above 0 (R95, R162). -/
def judgeFlex (r : Nat) (s : State) : State :=
  let holds : Bool := 0 < (s.rideBook r).u
  if holds = (s.rideBook r).flexLevel then s
  else reportLevel .flex r holds (saturate 255 (s.rideBook r).u) (s.modBook r fun b => { b with flexLevel := holds })

/-- The BOOK level's detail: the greater share, in whole percent rounded down (R162). -/
def bookDetail (active accounts : Nat) : Nat :=
  max (active * 100 / Config.passRecords) (accounts * 100 / Config.accountRecords)

/-- The condition of the BOOK level (R132). -/
def Book.holds (b : Book) : Bool := Config.bookPasses ≤ b.activeCount || Config.bookAccounts ≤ b.accounts.length

/-- The BOOK level is judged (R132). -/
def judgeBook (s : State) : State :=
  if s.book.holds = s.book.bookLevel then s
  else reportLevel .book 0 s.book.holds (bookDetail s.book.activeCount s.book.accounts.length)
    { s with book := { s.book with bookLevel := s.book.holds } }

/-! ### Placement (R96) -/

/-- The hold a window takes of `u` unplaced guests: min(u, floor(CAP / 2) − HOLD, CAP − ISSUED − HOLD), 0 where that is
negative (R96). -/
def Window.holdFor (u : Nat) (w : Window) : Nat := min u (min (w.cap / 2 - w.hold) (w.cap - w.issued - w.hold))

/-- The walk of placement over the windows from the lead window on: what is left of U, and the windows (R96). -/
def placeWalk : Nat → List Window → Nat × List Window
  | u, [] => (u, [])
  | u, w :: ws =>
      if w.resolved then ((placeWalk u ws).1, w :: (placeWalk u ws).2)
      else
        ((placeWalk (u - w.holdFor u) ws).1, { w with hold := w.hold + w.holdFor u } :: (placeWalk (u - w.holdFor u) ws).2)

/-- Placement in what the Return Book keeps for a ride, at minute `m` (R96). -/
def RideBook.place (m : Nat) (b : RideBook) : RideBook :=
  match leadIndex b m with
  | none => b
  | some i =>
      { b with
        windows := b.windows.take i ++ (placeWalk b.u (b.windows.drop i)).2
        u := (placeWalk b.u (b.windows.drop i)).1 }

/-- Placement runs if the ride is OPEN and its U is above 0 (R96, R97). -/
def place (r : Nat) (s : State) : State :=
  match s.units.find r with
  | none => s
  | some u =>
      if u.state = .opened ∧ 0 < (s.rideBook r).u then s.modBook r (RideBook.place s.minute) else s

/-! ### State change reports (R90, R91) -/

/-- An entry into an out-of-service STATE in minute `e` marks a window whose [START, GRACE_END] contains it (R91). -/
def Window.mark (e : Nat) (w : Window) : Window :=
  if !w.resolved && w.startMin ≤ e && e ≤ w.graceEnd then { w with interrupted := true } else w

/-- Marking of a ride's windows by the entry minute floor(STATE_SINCE / 60) of the report (R91). -/
def markWindows (r : Nat) (since : Option Nat) (s : State) : State :=
  match since with
  | none => s
  | some t => s.modBook r fun b => { b with windows := b.windows.map (Window.mark (t / 60)) }

/-- The Return Book takes a state change report: marking, placement, SLOTS (R90). The FLEX level is judged after the
placement (R95). -/
def bookHears (r : Nat) (new : RideState) (since : Option Nat) (s : State) : State :=
  let s := if new.inService then s else markWindows r since s
  let s := if new = .opened then judgeFlex r (place r s) else s
  judgeSlots r s

/-- The report may fall together with a grace end of its ride: it tells of an out-of-service STATE entered in the last
second of a minute that is the GRACE_END of an unresolved window, so that the next advance ends that minute (R14, R91;
log 30). -/
def State.meetsGraceEnd (s : State) (rep : StateReport) : Bool :=
  !rep.new.inService &&
    (match rep.since with
      | none => false
      | some t => t % 60 = 59 && (s.rideBook rep.ride).windows.any fun w => !w.resolved && w.graceEnd = t / 60)

/-- The Return Book takes those of its late reports that a test picks, oldest first (R23, R91; log 30). -/
def takeLate (pick : StateReport → Bool) (s : State) : State :=
  (s.book.late.filter pick).foldl (fun s rep => bookHears rep.ride rep.new rep.since s)
    { s with book := { s.book with late := s.book.late.filter fun rep => !pick rep } }

/-- A state change report is made to the Return Book. It is taken at once, after the late reports of its ride; a report
that meets a grace end may be left for the next advance of CLOCK, in either order with the window events there (R23, R91;
log 30). -/
def reportToBook (rep : StateReport) (s : State) : State :=
  if s.meetsGraceEnd rep ∧ s.takeGraceOrder.1 = true then
    { s.takeGraceOrder.2 with book := { s.book with late := s.book.late ++ [rep] } }
  else
    bookHears rep.ride rep.new rep.since (takeLate (fun x => x.ride = rep.ride)
      (if s.meetsGraceEnd rep then s.takeGraceOrder.2 else s))

/-! ### Retirement (R103, R105, R106) -/

/-- A pass retires in a STATE at the current minute: it leaves its account's ACTIVE list, joins the end of the
retirement queue, and the active count falls by 1 (R103, R105, R106, R108). -/
def retirePass (n : Nat) (st : PassState) (s : State) : State :=
  match s.book.passes.find n with
  | none => s
  | some p =>
      { s with book := { s.book with
          passes := s.book.passes.update n fun p => { p with state := st, retiredAt := some s.minute }
          accounts := s.book.accounts.update p.account fun a => { a with active := a.active.filter (· ≠ n) }
          retired := s.book.retired ++ [n]
          activeCount := s.book.activeCount - 1 } }

/-- A pass becomes FLEX at the current minute, and F and U of its ride grow by its REMAINING (R92, R95). -/
def convertPass (r n : Nat) (s : State) : State :=
  match s.book.passes.find n with
  | none => s
  | some p =>
      (s.modPass n fun p => { p with state := .flex, flexAt := some s.minute }).modBook r fun b =>
        { b with f := b.f + p.remaining, u := b.u + p.remaining }

/-! ### Resolution (R92) -/

/-- A window after its resolution (R92, steps 2 to 4). -/
def Window.settle (w : Window) : Window := { w with passes := [], hold := 0, resolved := true }

/-- Steps 1 to 4 of a resolution: the passes on the window are converted or expired in list order, and the window is
settled (R92). -/
def disposeWindow (r i : Nat) (w : Window) (s : State) : State :=
  (if w.interrupted then w.passes.foldl (fun s n => convertPass r n s) s
   else w.passes.foldl (fun s n => retirePass n .expired s) s).modWindow r i Window.settle

/-- Steps 1 to 6 of the resolution of window `i` of a ride: disposal, placement if any pass was converted, SLOTS (R92). -/
def settleWindow (r i : Nat) (w : Window) (s : State) : State :=
  let s := disposeWindow r i w s
  judgeSlots r (if w.interrupted ∧ w.passes ≠ [] then place r s else s)

/-! ### Window start and end of the grid (R86) -/

/-- A window-start event for one ride (R86). -/
def windowStart (i r : Nat) (s : State) : State :=
  match (s.rideBook r).windows[i]?, s.units.find r with
  | some w, some u =>
      if w.resolved then s
      else judgeSlots r (s.modWindow r i fun w =>
        { w with started := true, interrupted := w.interrupted || !u.state.inService })
  | _, _ => s

/-- The end of the grid for one ride: from that minute its lead window is absent, and SLOTS is judged (R86, R99). -/
def endGrid (r : Nat) (s : State) : State := judgeSlots r (s.modBook r fun b => { b with gridEnded := true })

end Sys2Proof.Machine
end

