-- ==== Sys2Proof/Machine/Rides.lean ====
section
/-! DEFINITION. The Ride State Unit: state changes and their reports, the close check, timers and thresholds, tests, and
what it does with reports of other blocks (R18 to R37). With the close check the resolution of a window is whole (R92). -/

namespace Sys2Proof.Machine

/-! ### State changes (R23) -/

/-- The STALL level of a STATE: HELD with CAUSE STALL (R23). -/
def RideState.stalled : RideState → Bool
  | .held .stall => true
  | _ => false

/-- One receiver takes a state change report (R23): the Flow Estimator (R76), the Return Book (R90), the Board Composer
(R152), and the Notice Unit for the STALL level and for the STATE event (R158, R162). -/
def hear (rep : StateReport) (s : State) : Hearer → State
  | .estimator => estimatorHears rep.ride rep.new s
  | .book => reportToBook rep s
  | .boards => blinkRide rep.ride s
  | .stallNotice =>
      if rep.new.stalled = rep.prev.stalled then s
      else reportLevel .stall rep.ride rep.new.stalled (if rep.new.stalled then 0 else rep.new.number) s
  | .stateNotice => reportEvent .state rep.ride rep.new.number s

/-- The default order of the receivers (log 4). -/
def hearers : List Hearer := [.estimator, .book, .boards, .stallNotice, .stateNotice]

/-- The receivers of a report in a wished order. -/
def hearersBy (wish : List Hearer) : List Hearer := arrange (fun a b => a = b) wish hearers

/-- The ride record at a state change: STATE, CAUSE, STATE_SINCE; an entry into TESTING sets the test counts to 0 (R28),
an entry into OPEN the stall timer (R30). -/
def RideUnit.enter (new : RideState) (since : Option Nat) (u : RideUnit) : RideUnit :=
  { u with
    state := new
    since := since
    stall := if new = .opened then 0 else u.stall
    testDispatches := if new.isTesting then 0 else u.testDispatches
    testMinutes := if new.isTesting then 0 else u.testMinutes }

/-- A state change of a ride: its record, then the report to the four receivers (R23). -/
def changeState (r : Nat) (new : RideState) (s : State) : State :=
  match s.units.find r with
  | none => s
  | some u =>
      let rep : StateReport := { ride := r, prev := u.state, new, since := s.clockNow }
      let x := (s.modUnit r (RideUnit.enter new s.clockNow)).takeReportOrder
      (hearersBy x.1).foldl (hear rep) x.2

/-! ### The close check (R26) -/

/-- The close check holds: the ride is CLOSING, its Q is 0, and all its windows are resolved (R26, R94). -/
def State.closeHolds (s : State) (r : Nat) : Bool :=
  match s.units.find r, s.ests.find r with
  | some u, some e => u.state = .closing && e.q = 0 && s.allResolved r
  | _, _ => false

/-- The close check (R26). -/
def closeCheck (r : Nat) (s : State) : State :=
  if s.closeHolds r then changeState r .closed s else s

/-- A transition into a STATE, with the close check on entry into CLOSING (R23, R26). -/
def enterState (r : Nat) (new : RideState) (s : State) : State :=
  let s' := changeState r new s
  if new = .closing then closeCheck r s' else s'

/-- A Q-at-zero report is made if Q of the ride is 0, and the Ride State Unit makes the close check (R61, R26). -/
def reportZero (r : Nat) (s : State) : State :=
  match s.ests.find r with
  | none => s
  | some e => if e.q = 0 then closeCheck r s else s

/-! ### Resolution, whole (R92, R93) -/

/-- A window of a ride is resolved if it is not, and the resolution is reported to the Ride State Unit (R92, R94). -/
def resolveWindow (r i : Nat) (s : State) : State :=
  match (s.rideBook r).windows[i]? with
  | none => s
  | some w => if w.resolved then s else closeCheck r (settleWindow r i w s)

/-- Windows 0 to `i` of a ride are resolved, lower indices first (R93). -/
def resolveUpTo (r i : Nat) (s : State) : State :=
  (List.range (i + 1)).foldl (fun s j => resolveWindow r j s) s

/-- A grace-end event for one ride: resolution in index order, then the levels judged at the end of the event (R93, R95,
R132). The rides take the event in turn, and BOOK is judged at the end of each ride's part: the model's choice, which
fixes the counts in the detail byte of a fall (log 31). -/
def graceEnd (i r : Nat) (s : State) : State := judgeBook (judgeFlex r (resolveUpTo r i s))

/-! ### Opening and park close (R24, R25) -/

/-- The opening event of a ride (R24). -/
def openingEvent (r : Nat) (s : State) : State :=
  match s.units.find r with
  | none => s
  | some u => if u.state = .closed then enterState r (.testing .fromClosed) s else s

/-- The park-close event of a ride (R25). -/
def parkCloseEvent (r : Nat) (s : State) : State :=
  match s.units.find r with
  | none => s
  | some u => if u.state = .opened ∨ u.state.isHeld then enterState r .closing s else s

/-! ### Testing (R28, R29) -/

/-- The test is complete (R29). -/
def RideUnit.testDone (u : RideUnit) : Bool :=
  u.state.isTesting && u.config.testDispatches ≤ u.testDispatches && u.config.testMinutes ≤ u.testMinutes

/-- A report or a minute tick has been counted since the entry into TESTING, where no check is made (R29; log 10). -/
def RideUnit.testCounted (u : RideUnit) : Bool := 0 < u.testDispatches || 0 < u.testMinutes

/-- The completion check of a test (R29). -/
def testCheck (r : Nat) (s : State) : State :=
  match s.units.find r with
  | none => s
  | some u =>
      if u.testDone then enterState r (if s.time.closePassed then .closing else .opened) s else s

/-- The Ride State Unit takes a minute tick for a ride (R28, R29). -/
def testMinute (r : Nat) (s : State) : State :=
  match s.units.find r with
  | none => s
  | some u =>
      if u.state.isTesting then
        testCheck r (s.modUnit r fun u => { u with testMinutes := saturate 255 (u.testMinutes + 1) })
      else s

/-! ### Holding too long (R32) -/

/-- A held-minute report is taken (R32). -/
def takeHeldMinute (r : Nat) (s : State) : State :=
  match s.units.find r, s.ests.find r with
  | some u, some e =>
      if u.state.isHeld ∧ u.config.auto ∧ u.config.downAfter ≤ e.heldMin then
        enterState r (.down .heldTooLong) s
      else s
  | _, _ => s

/-! ### Fault, clear and stall timers (R30 to R36) -/

/-- LAST_CODE of a ride, absent before its first good reply (R56). -/
def State.lastCode (s : State) (r : Nat) : Option Nat := (s.poller.records.find r).bind (·.lastCode)

/-- The ride's link is UP. -/
def State.linkUp (s : State) (r : Nat) : Bool :=
  match s.poller.records.find r with
  | some f => f.link = .up
  | none => false

/-- The CODE level rises when the fault timer stands at CODE_PERSIST or above with the level clear; with AUTO set an OPEN,
HELD, TESTING or CLOSING ride goes DOWN (R34, R35). -/
def codeRiseCheck (r : Nat) (s : State) : State :=
  match s.units.find r with
  | none => s
  | some u =>
      if u.codeLevel = false ∧ u.config.codePersist ≤ u.fault then
        let s' := reportLevel .code r true ((s.lastCode r).getD 0) (s.modUnit r fun u => { u with codeLevel := true })
        if u.config.auto ∧ (u.state.inService ∨ u.state.isTesting) then enterState r (.down .code) s' else s'
      else s

/-- The CODE level falls when the clear timer stands at CLEAR_PERSIST or above; with AUTO set a DOWN ride goes to
TESTING (R36). -/
def codeFallCheck (r : Nat) (s : State) : State :=
  match s.units.find r with
  | none => s
  | some u =>
      if u.codeLevel = true ∧ u.config.clearPersist ≤ u.clear then
        let s' := reportLevel .code r false ((s.lastCode r).getD 0)
          (s.modUnit r fun u => { u with codeLevel := false, clear := 0 })
        if u.config.auto ∧ u.state.isDown then enterState r (.testing .fromDown) s' else s'
      else s

/-- An OPEN ride whose stall timer stands at STALL_TIME or above goes HELD with CAUSE STALL (R31). -/
def stallCheck (r : Nat) (s : State) : State :=
  match s.units.find r with
  | none => s
  | some u => if u.state = .opened ∧ u.config.stallTime ≤ u.stall then enterState r (.held .stall) s else s

/-- The second tick's count of the persistence timers by the latest code (R34, R36). The fault timer is counted while it is
below CODE_PERSIST, with the CODE level set too: after a CONFRIDE that raises CODE_PERSIST it goes on, though R34 also says
that it then holds its value (the model's choice, log 38). -/
def persistSecond (r : Nat) (s : State) : State :=
  match s.units.find r, s.lastCode r with
  | some u, some code =>
      if faultCode code then
        codeRiseCheck r (s.modUnit r fun u =>
          { u with fault := if u.fault < u.config.codePersist then u.fault + 1 else u.fault })
      else if u.codeLevel then codeFallCheck r (s.modUnit r fun u => { u with clear := u.clear + 1 })
      else s
  | _, _ => s

/-- The second tick's count of the stall timer of an OPEN ride (R30, R31). -/
def stallSecond (r : Nat) (s : State) : State :=
  match s.units.find r with
  | none => s
  | some u =>
      if u.state = .opened then stallCheck r (s.modUnit r fun u => { u with stall := saturate 900 (u.stall + 1) })
      else s

/-- The Ride State Unit takes a second tick for a ride: nothing is counted unless the link is UP; the persistence timers
come first, so that a tick that takes the ride DOWN does not count the stall timer (R30, R34, R35, R36). -/
def unitSecond (r : Nat) (s : State) : State :=
  if s.linkUp r then stallSecond r (persistSecond r s) else s

/-! ### Reports of the Field Poller (R28, R31, R33, R37) -/

/-- The status code of a report sets one persistence timer to 0 (R33). -/
def RideUnit.takeCode (code : Nat) (u : RideUnit) : RideUnit :=
  if faultCode code then { u with clear := 0 } else { u with fault := 0 }

/-- The dispatch delta of a report in one ride record: the stall timer when it is above 0 (R30), the test count while
TESTING (R28). -/
def RideUnit.takeDispatches (d : Nat) (u : RideUnit) : RideUnit :=
  { u with
    stall := if 0 < d then 0 else u.stall
    testDispatches := if u.state.isTesting then saturate 255 (u.testDispatches + d) else u.testDispatches }

/-- A report in one ride record: its code, and its dispatch delta when it is a delta report; a baseline-only or an
implausible report carries none and adds nothing (R28, R30, R33). -/
def RideUnit.takeReport (code : Nat) (dispatches : Option Nat) (u : RideUnit) : RideUnit :=
  match dispatches with
  | none => u.takeCode code
  | some d => (u.takeCode code).takeDispatches d

/-- A report of a ride, of any kind: dispatches end a stall (R31), and after the report has been counted the completion
of a test is checked (R29). -/
def unitReport (r code : Nat) (dispatches : Option Nat) (s : State) : State :=
  let s := s.modUnit r (RideUnit.takeReport code dispatches)
  match s.units.find r with
  | none => s
  | some u => if 0 < dispatches.getD 0 ∧ u.state.stalled then enterState r .opened s else testCheck r s

/-- The Ride State Unit takes a link state change: an entry into LOST sets the persistence timers to 0 (R37). -/
def unitLink (r : Nat) (new : Link) (s : State) : State :=
  if new = .lost then s.modUnit r fun u => { u with fault := 0, clear := 0 } else s

end Sys2Proof.Machine
end

