-- ==== Sys2Proof/Machine/Ticks.lean ====
section
/-! DEFINITION. The Time Base: the day schedule, the advance of CLOCK with the takings of its ticks and day events, the
second of the reference clock and the hold (R1, R2, R4, R14, R15, R68). -/

namespace Sys2Proof.Machine

/-! ### The day schedule (R14) -/

/-- Which of two events is delivered first: by minute, and within a minute window events in increasing index, then the
park close and the end of the grid (R14, R15). -/
def Scheduled.rank (e : Scheduled) : Nat :=
  e.minute * 1000 + match e.event with
    | .windowStart i => i
    | .graceEnd i => i
    | .parkClose => 900
    | .gridEnd => 901

/-- Insert an event into a schedule in order. -/
def insertScheduled (e : Scheduled) : List Scheduled → List Scheduled
  | [] => [e]
  | x :: xs => if e.rank ≤ x.rank then e :: x :: xs else x :: insertScheduled e xs

/-- The list events of a day plan with the minutes whose ticks deliver them, in minute order (R14). A grace end is
delivered by the tick into the minute after GRACE_END. -/
def buildSchedule (plan : Plan) (gLate : Nat) : List Scheduled :=
  let starts := (List.range plan.n).map fun i => Scheduled.mk (plan.openMin + plan.len * i) (.windowStart i)
  let ends := (List.range plan.n).map fun i =>
    Scheduled.mk (plan.openMin + plan.len * (i + 1) + gLate + 1) (.graceEnd i)
  let marks := [Scheduled.mk plan.closeMin .parkClose, Scheduled.mk (plan.openMin + plan.len * plan.n) .gridEnd]
  (starts ++ marks ++ ends).foldr insertScheduled []

/-- The list events due from the delivery position on, by a test of their minutes, and the position moves past them
(R15). -/
def takeDue (due : Nat → Bool) (s : State) : List DayEvent × State :=
  let es := (s.time.schedule.drop s.time.position).takeWhile fun e => due e.minute
  (es.map (·.event), { s with time := { s.time with position := s.time.position + es.length } })

/-- The rides whose opening event the tick into minute `m` delivers: OPENS_AT is `m` and the mark is clear (R15). -/
def State.openingRides (s : State) (m : Nat) : List Nat :=
  s.rides.filter fun r =>
    (match s.units.find r with | some u => u.config.opensAt = some m | none => false) && !s.time.openMarks.contains r

/-- Delivering an opening event sets the ride's opening mark (R15). -/
def setMarks (rs : List Nat) (s : State) : State :=
  { s with time := { s.time with openMarks := rs.foldl (fun ms r => insertRising r ms) s.time.openMarks } }

/-- The Return Book takes one list event for one ride; the park close is not its (R86, R93). -/
def bookEvent (r : Nat) (s : State) : DayEvent → State
  | .windowStart i => windowStart i r s
  | .graceEnd i => graceEnd i r s
  | .gridEnd => endGrid r s
  | .parkClose => s

/-- CLOSE_PASSED is set when the park-close event is delivered (R14). -/
def setClosePassed (s : State) : State := { s with time := { s.time with closePassed := true } }

/-! ### The Flow Estimator's minute (R68) -/

/-- Steps 1 to 4 in one estimator record: sample, accumulators, eligibility, held minute (R66, R68, R69, R73). -/
def Estimator.minute (p : Params) (u : RideUnit) (linkUp forward : Bool) (e : Estimator) : Estimator :=
  { e with
    s := if e.eligible then smooth p.k e.s e.m else e.s
    sr := if e.eligible then smooth p.k e.sr e.mr else e.sr
    m := 0
    mr := 0
    eligible := (u.state = .opened || u.state = .closing) && linkUp && !forward
    heldMin := if u.state.isHeld then saturate Config.waitMax (e.heldMin + 1) else e.heldMin }

/-- The Flow Estimator takes a minute tick for a ride (R68). The held-minute report of step 4 is taken by the Ride State
Unit as it is made, or after the last step when `late` (log 4). `forward` marks a tick of a forward correction (R67). -/
def estimatorMinute (forward late : Bool) (r : Nat) (s : State) : State :=
  match s.units.find r with
  | none => s
  | some u =>
      let s := s.modEst r (Estimator.minute s.time.params u (s.linkUp r) forward)
      let s := if u.state.isHeld ∧ ¬ late then takeHeldMinute r s else s
      let s := publishMinute r (staleMinute r s)
      if u.state.isHeld ∧ late then takeHeldMinute r s else s

/-! ### The takings of one advance (R2, R15) -/

/-- Two names of one taking: the estimator's two ways are one taking. -/
def Taking.same : Taking → Taking → Bool
  | .estimator r, .estimatorLate r' | .estimatorLate r, .estimator r' => r = r'
  | a, b => a = b

/-- What an advance has its receivers take: `events` the list events and `openings` the rides of opening events that it
delivers. -/
structure Delivery where
  forward : Bool
  minuteTick : Bool
  events : List DayEvent
  openings : List Nat
deriving DecidableEq, Repr

/-- One taking (R2, R15, R24, R25, R28, R30, R68, R86, R91, R93, R155). CLOSE_PASSED is set before any ride takes the park
close. All window events of the tick for one ride are ONE taking, which nothing breaks: where a grace end and a window
start of a ride fall at one tick, no state change report is taken between the two (the model's choice, log 32). -/
def take (d : Delivery) (s : State) : Taking → State
  | .second r => unitSecond r s
  | .testMinute r => testMinute r s
  | .estimator r => estimatorMinute d.forward false r s
  | .estimatorLate r => estimatorMinute d.forward true r s
  | .overrides => countOverrides s
  | .windows r => d.events.foldl (bookEvent r) s
  | .lateReports => takeLate (fun _ => true) s
  | .closePassed => setClosePassed s
  | .parkClose r => parkCloseEvent r (setClosePassed s)
  | .opening r => openingEvent r s

/-- The takings of a delivery in the default order (log 4); `late` says that the Return Book has reports to take. -/
def takings (d : Delivery) (late : Bool) (rides : List Nat) : List Taking :=
  (if late then [.lateReports] else []) ++ rides.map .second ++
  (if d.minuteTick then rides.map .testMinute ++ rides.map .estimator ++ [.overrides] else []) ++
  (if d.events.isEmpty then [] else rides.map .windows) ++
  (if d.events.contains .parkClose then .closePassed :: rides.map .parkClose else []) ++
  d.openings.map .opening

/-- CLOCK advances by one second, wrapping at midnight (R1). -/
def stepClock (s : State) : State :=
  { s with time := { s.time with clock := if s.time.clock + 1 < Config.daySeconds then s.time.clock + 1 else 0 } }

/-- What the advance just made delivers; day events are delivered in DAY only (R2, R15). -/
def deliver (forward : Bool) (s : State) : Delivery × State :=
  if s.time.clock % 60 = 0 then
    if s.time.day = .day then
      let x := takeDue (fun minute => minute % Config.dayMinutes = s.minute) s
      let openings := s.openingRides s.minute
      ({ forward, minuteTick := true, events := x.1, openings }, setMarks openings x.2)
    else ({ forward, minuteTick := true, events := [], openings := [] }, s)
  else ({ forward, minuteTick := false, events := [], openings := [] }, s)

/-- One advance of CLOCK: its ticks and day events are taken in a wished order (R2, R15; log 4). All of them are taken within
the advance, so no REDEEM or VOID is taken between the minute that passes a GRACE_END and the Return Book's grace-end event,
an order that R121 and R126 allow (the model's choice, DESIGN CHOICE, log 43). -/
def advance (forward : Bool) (s : State) : State :=
  let x := deliver forward (stepClock s)
  let y := x.2.takeTickOrder
  (arrange Taking.same y.1 (takings x.1 (!s.book.late.isEmpty) s.rides)).foldl (take x.1) y.2

/-! ### The reference clock -/

/-- What counts seconds of the reference clock beside CLOCK: the interval timer between board passes, and the opening
erase (R2, R7, R140). -/
def countReference (s : State) : State :=
  { s with
    time := { s.time with erase := s.time.erase.map fun n => saturate Config.eraseSeconds (n + 1) }
    boards := { s.boards with timer := if s.boards.startOwed then s.boards.timer else s.boards.timer + 1 } }

/-- A second of the reference clock: a hold counts down without an advance; a RUNNING CLOCK advances; an UNSET one
does not (R1, R4). -/
def referenceSecond (s : State) : State :=
  let s := countReference s
  if 0 < s.time.hold then { s with time := { s.time with hold := s.time.hold - 1 } }
  else match s.time.clockState with
    | .unset => s
    | .running => advance false s

/-- `n` advances of a forward correction, oldest second first (R4). -/
def advances : Nat → State → State
  | 0, s => s
  | n + 1, s => advances n (advance true s)

end Sys2Proof.Machine
end

