-- ==== Sys2Proof/Machine/Passes.lean ====
section
/-! DEFINITION. Passes and accounts: the window search and the party-1 quote, guards, RESERVE, REDEEM, VOID, and the
queries of the book (R102 to R131, R179). -/

namespace Sys2Proof.Machine

/-- What a request leaves: the state its owner made, and the fields of the reply. -/
abbrev Answer := State × ReplyBody

/-- A request of the day refused by the day state (R38, R63, R89, R111, R120, R126: check 1). -/
def dayRefusal : DayState → Option Code
  | .day => none
  | .opening => some .busy
  | .idle | .after => some .noDay

/-- The day has passed minute `x` (R110). -/
def State.dayPassed (s : State) (x : Nat) : Bool :=
  x < s.minute ||
    (s.time.closePassed && (match s.time.plan with | some p => s.minute < p.closeMin | none => false))

/-! ### The window search and the party-1 quote (R112, R113, R118) -/

/-- RESERVE's refusal by the ride's STATE; OPEN and HELD pass (R112, check 5). -/
def reserveRefusal : RideState → Option Code
  | .down _ => some .rideDown
  | .testing _ => some .rideNotReady
  | .closed | .closing => some .rideClosed
  | .opened | .held _ => none

/-- The target minute T of a published wait (R113). -/
def State.target (s : State) (w : Wait) : Nat := s.minute + max s.time.params.lead w.value

/-- A window a search for `party` guests after `t` may choose (R113). -/
def Window.suits (t party : Nat) (w : Window) : Bool := !w.resolved && t < w.endMin && party ≤ w.free

/-- The lowest-indexed window of a ride that suits (R113). -/
def State.searchWindow (s : State) (r t party : Nat) : Option (Nat × Window) :=
  match (s.rideBook r).windows.findIdx? (Window.suits t party) with
  | none => none
  | some i => (s.rideBook r).windows[i]?.map (i, ·)

/-- A party-1 quote: its outcome, and the window chosen when it is DONE (R118). -/
structure Quote where
  code : Code
  window : Option Window
deriving DecidableEq, Repr

/-- The party-1 quote of a ride (R118). It reads and changes nothing. -/
def State.quote (s : State) (r : Nat) : Quote :=
  match dayRefusal s.time.day with
  | some c => ⟨c, none⟩
  | none =>
    match s.units.find r, s.ests.find r with
    | some u, some e =>
      match reserveRefusal u.state with
      | some c => ⟨c, none⟩
      | none =>
        match e.wait with
        | none => ⟨.noData, none⟩
        | some w =>
          match s.searchWindow r (s.target w) 1 with
          | none => ⟨.soldOut, none⟩
          | some (_, win) => ⟨.done, some win⟩
    | _, _ => ⟨.unknownRide, none⟩

/-! ### Guards (R179) -/

/-- Guard codes 11..255 are reserved (R179). -/
def guardReserved (code : Nat) : Bool := 10 < code

/-- A guard is evaluated against the ride named by the request (R179). -/
def State.guardHolds (s : State) (code operand r : Nat) : Bool :=
  match s.units.find r, s.ests.find r, s.poller.records.find r with
  | some u, some e, some f =>
    match code with
    | 0 => true
    | 1 => u.state = .opened
    | 2 => u.state ≠ .opened
    | 3 => u.state.isHeld
    | 4 => u.state.isDown
    | 5 => u.state = .closed
    | 6 => u.state.isTesting
    | 7 => match e.wait with | some w => operand ≤ w.value | none => false
    | 8 => match e.wait with | some w => w.value < operand | none => false
    | 9 => f.link = .lost
    | 10 => match (s.quote r).window with | some w => operand ≤ w.free | none => false
    | _ => false
  | _, _, _ => false

/-! ### RESERVE (R111 to R117) -/

/-- The operands of a RESERVE. -/
structure ReserveOps where
  ride : Nat
  token : Nat
  party : Nat
  guard : Nat
  operand : Nat
  flags : Nat
deriving DecidableEq, Repr

/-- QUOTE is bit 0 of the flags (R184). -/
def ReserveOps.quote (o : ReserveOps) : Bool := o.flags % 2 = 1

/-- Check 2: the structure of a RESERVE (R111, R178). -/
def ReserveOps.malformed (o : ReserveOps) : Bool :=
  o.token = 0 || o.party = 0 || 8 < o.party || guardReserved o.guard || 2 ≤ o.flags

/-- The active pass on ride `r` in an ACTIVE list (R112). -/
def State.conflictIn (s : State) (active : List Nat) (r : Nat) : Option Nat :=
  active.find? fun n => match s.book.passes.find n with | some p => p.ride = r | none => false

/-- Check 7: the account checks, in order (R112). DUPLICATE comes with the conflicting pass number. -/
def State.accountRefusal (s : State) (token ride : Nat) : Option (Code × Option Nat) :=
  match s.book.accounts.find token with
  | none => if Config.accountRecords ≤ s.book.accounts.length then some (.accountFull, none) else none
  | some a =>
    if s.time.params.a ≤ a.active.length then some (.activeLimit, none)
    else match s.conflictIn a.active ride with
      | some n => some (.duplicate, some n)
      | none =>
        if 0 < s.time.params.d ∧ s.time.params.d ≤ a.issuedToday then some (.dailyLimit, none) else none

/-- A window found by RESERVE, with its target minute. -/
structure Found where
  index : Nat
  window : Window
  t : Nat
deriving DecidableEq, Repr

/-- Checks 1 to 8 of a RESERVE: the first that fails with its outcome and reply fields, or the window found (R111 to
R113, R117). -/
def State.reserveFind (s : State) (o : ReserveOps) : Except (Code × ReserveView) Found :=
  match dayRefusal s.time.day with
  | some c => .error (c, {})
  | none =>
    if o.malformed then .error (.malformed, {})
    else match s.units.find o.ride, s.ests.find o.ride with
      | some u, some e =>
        if s.guardHolds o.guard o.operand o.ride = false then
          .error (.guardFalse, { party := some o.party, ride := some u.state })
        else match reserveRefusal u.state with
          | some c => .error (c, { party := some o.party, ride := some u.state })
          | none =>
            match e.wait with
            | none => .error (.noData, { party := some o.party })
            | some w =>
              match s.accountRefusal o.token o.ride with
              | some (c, n) => .error (c, { party := some o.party, conflict := n })
              | none =>
                match s.searchWindow o.ride (s.target w) o.party with
                | none => .error (.soldOut, { party := some o.party, t := some (s.target w) })
                | some (i, win) => .ok { index := i, window := win, t := s.target w }
      | _, _ => .error (.unknownRide, { party := some o.party })

/-- The pass table is full (R105). -/
def Book.full (b : Book) : Bool := Config.passRecords ≤ b.passes.length

/-- Check 9: no record space (R114). -/
def Book.noSpace (b : Book) : Bool := Config.serialEnd ≤ b.serial || (b.full && b.retired.isEmpty)

/-- The head of the retirement queue is reclaimed when the table is full (R107, R114). -/
def Book.reclaim (b : Book) : Book :=
  if b.full then
    match b.retired with
    | [] => b
    | n :: ns => { b with passes := b.passes.remove n, retired := ns }
  else b

/-- The account a pass is issued to, after the issue: a new record is made for a token that has none (R108, R109, R115). -/
def Account.issued (m n : Nat) (a : Option Account) : Account :=
  match a with
  | none => { active := [n], issuedToday := 1, firstSeen := m }
  | some a => { a with active := a.active ++ [n], issuedToday := saturate 255 (a.issuedToday + 1) }

/-- The issue of a pass in the book, at minute `m` (R115, steps 1 to 4). -/
def Book.issue (m : Nat) (o : ReserveOps) (i : Nat) (b : Book) : Book :=
  let n := b.serial
  { b with
    accounts := b.accounts.put o.token (Account.issued m n (b.accounts.find o.token))
    passes := b.passes.put n
      { ride := o.ride, window := i, account := o.token, party := o.party, remaining := o.party, state := .issued,
        issuedAt := m, firstUse := none, flexAt := none, retiredAt := none }
    serial := n + 1
    activeCount := b.activeCount + 1
    rides := b.rides.update o.ride fun rb =>
      { rb with windows := rb.windows.modify i fun w =>
          { w with issued := w.issued + o.party, passes := w.passes ++ [n] } } }

/-- A pass is issued, and the SLOTS and BOOK levels are judged (R115). -/
def issuePass (o : ReserveOps) (i : Nat) (s : State) : State :=
  judgeBook (judgeSlots o.ride { s with book := (s.book.reclaim).issue s.minute o i })

/-- RESERVE, and its quote (R111 to R117). -/
def serveReserve (o : ReserveOps) (s : State) : Answer :=
  match s.reserveFind o with
  | .error (c, v) => (s, .reserve c o.ride v)
  | .ok f =>
    let v : ReserveView :=
      { window := some f.index, startMin := some f.window.startMin, endMin := some f.window.endMin,
        party := some o.party, t := some f.t }
    if o.quote then (s, .reserve .done o.ride v)
    else if s.book.noSpace then (s, .reserve .bookFull o.ride { party := some o.party, t := some f.t })
    else (issuePass o f.index s, .reserve .done o.ride { v with pass := some s.book.serial })

/-! ### REDEEM (R120 to R125) -/

/-- A pass number outside 1..16,777,215 is malformed (R120, R126, R129). -/
def passMalformed (n : Nat) : Bool := n = 0 || Config.passMax < n

/-- The window of a pass. -/
def State.windowOf (s : State) (p : Pass) : Option Window := (s.rideBook p.ride).windows[p.window]?

/-- An ISSUED pass past its window's grace end has the window resolved within the request, lower ones first (R121,
R126). No run of the model comes here with such a pass, since `advance` takes the grace-end event with the minute that passes
GRACE_END (the model's choice, log 43). -/
def earlyResolution (p : Pass) (s : State) : State :=
  if p.state = .issued then
    match s.windowOf p with
    | none => s
    | some w => if s.dayPassed w.graceEnd then resolveUpTo p.ride p.window s else s
  else s

/-- The refusal of a retired pass (R120, check 4). -/
def retiredRefusal : PassState → Option Code
  | .redeemed => some .alreadyUsed
  | .voided => some .voidedPass
  | .expired => some .tooLate
  | .issued | .flex => none

/-- The ride check of REDEEM: OPEN, HELD and CLOSING let guests in (R123). -/
def redeemRefusal : RideState → Option Code
  | .down _ => some .rideDown
  | .testing _ => some .rideNotReady
  | .closed => some .rideClosed
  | .opened | .held _ | .closing => none

/-- The time check of a pass after any early resolution (R121, R122). -/
def State.timeRefusal (s : State) (p : Pass) : Option Code :=
  match p.state with
  | .issued =>
    match s.windowOf p with
    | some w => if s.minute + s.time.params.gEarly < w.startMin then some .tooEarly else none
    | none => none
  | .flex =>
    match s.time.plan with
    | some plan => if s.dayPassed (plan.closeMin + s.time.params.gLate) then some .tooLate else none
    | none => none
  | .redeemed | .voided | .expired => retiredRefusal p.state

/-- The STATE of a pass's ride; a ride without a record reads CLOSED. -/
def State.rideStateOf (s : State) (r : Nat) : RideState :=
  match s.units.find r with
  | some u => u.state
  | none => .closed

/-- Why REDEEM refuses a pass after any early resolution, with the ride's STATE when the ride check refuses (R121 to
R123). -/
def State.redeemCheck (s : State) (p : Pass) : Option (Code × Option RideState) :=
  match s.timeRefusal p with
  | some c => some (c, none)
  | none => (redeemRefusal (s.rideStateOf p.ride)).map fun c => (c, some (s.rideStateOf p.ride))

/-- Admission of `a` guests on pass `n`, steps 2 to 4 but for the levels (R124). -/
def admitGuests (n a : Nat) (p : Pass) (s : State) : State :=
  let s := s.modPass n fun p => { p with remaining := p.remaining - a, firstUse := some (p.firstUse.getD s.minute) }
  let s := if p.state = .flex then s.modBook p.ride fun b => { b with f := b.f - a, u := min b.u (b.f - a) } else s
  if p.remaining - a = 0 then
    let s := if p.state = .issued then
        s.modWindow p.ride p.window fun w => { w with passes := w.passes.filter (· ≠ n) } else s
    retirePass n .redeemed s
  else s

/-- The fields of a REDEEM reply from check 4 onward: the pass as the request leaves it; START and END for a pass that
was ISSUED when the request was taken (R125; log 14). -/
def redeemView (n admitted : Nat) (found : Pass) (rideState : Option RideState) (s : State) : RedeemView :=
  match s.book.passes.find n with
  | none => { admitted := some admitted }
  | some p =>
    let w := if found.state = .issued then s.windowOf found else none
    { admitted := some admitted, ride := some p.ride, window := some p.window, state := some p.state,
      remaining := some p.remaining, firstUse := p.firstUse, startMin := w.map (·.startMin),
      endMin := w.map (·.endMin), rideState }

/-- The levels a request of the book judges at its end (R95, R132). -/
def judgeRequest (r : Nat) (s : State) : State := judgeBook (judgeFlex r s)

/-- REDEEM (R120 to R125). -/
def serveRedeem (n k : Nat) (s : State) : Answer :=
  match dayRefusal s.time.day with
  | some c => (s, .redeem c n { admitted := some 0 })
  | none =>
    if passMalformed n ∨ k = 0 ∨ 8 < k then (s, .redeem .malformed n { admitted := some 0 })
    else match s.book.passes.find n with
      | none => (s, .redeem .unknownPass n { admitted := some 0 })
      | some found =>
        match retiredRefusal found.state with
        | some c => (s, .redeem c n (redeemView n 0 found none s))
        | none =>
          let s1 := earlyResolution found s
          match s1.book.passes.find n with
          | none => (s1, .redeem .unknownPass n { admitted := some 0 })
          | some p =>
            match s1.redeemCheck p with
            | some (c, st) => (judgeRequest p.ride s1, .redeem c n (redeemView n 0 found st s1))
            | none =>
              let a := min k p.remaining
              let s2 := admitGuests n a p s1
              (judgeRequest p.ride s2,
                .redeem (if p.remaining < k then .clamped else .done) n (redeemView n a found none s2))

/-! ### VOID (R126 to R128) -/

/-- VOID of an ISSUED pass, steps 1 to 7 (R127). The FLEX level is judged with any placement (R95). -/
def voidIssued (n : Nat) (p : Pass) (s : State) : State :=
  let s := s.modWindow p.ride p.window fun w =>
    { w with
      issued := if s.minute < w.endMin then w.issued - p.remaining else w.issued
      passes := w.passes.filter (· ≠ n) }
  judgeRequest p.ride (judgeSlots p.ride (place p.ride (retirePass n .voided s)))

/-- VOID of a FLEX pass, steps 1 to 6 (R128). -/
def voidFlex (n : Nat) (p : Pass) (s : State) : State :=
  let s := s.modBook p.ride fun b => { b with f := b.f - p.remaining, u := min b.u (b.f - p.remaining) }
  judgeBook (judgeSlots p.ride (judgeFlex p.ride (place p.ride (retirePass n .voided s))))

/-- The count a VOID of an ISSUED pass returns to its window (R127, R128). -/
def State.voidReturned (s : State) (p : Pass) : Nat :=
  match s.windowOf p with
  | some w => if s.minute < w.endMin then p.remaining else 0
  | none => 0

/-- The fields of a VOID reply from check 5 onward (R128). -/
def voidView (n : Nat) (returned : Option Nat) (s : State) : VoidView :=
  match s.book.passes.find n with
  | none => {}
  | some p =>
    { ride := some p.ride, window := some p.window, state := some p.state, remaining := some p.remaining, returned }

/-- VOID (R126 to R128). -/
def serveVoid (n : Nat) (s : State) : Answer :=
  match dayRefusal s.time.day with
  | some c => (s, .void c n {})
  | none =>
    if passMalformed n then (s, .void .malformed n {})
    else match s.book.passes.find n with
      | none => (s, .void .unknownPass n {})
      | some found =>
        let s1 := earlyResolution found s
        match s1.book.passes.find n with
        | none => (s1, .void .unknownPass n {})
        | some p =>
          match p.state with
          | .issued =>
            let s2 := voidIssued n p s1
            (s2, .void .done n (voidView n (some (s1.voidReturned p)) s2))
          | .flex =>
            let s2 := voidFlex n p s1
            (s2, .void .done n (voidView n none s2))
          | .redeemed | .expired | .voided =>
            (judgeRequest p.ride s1, .void .badState n (voidView n none s1))

/-! ### Queries of the book (R129 to R131) -/

/-- LOOKUP (R129). -/
def lookupReply (n : Nat) (s : State) : ReplyBody :=
  if passMalformed n then .lookup .malformed none none
  else match s.book.passes.find n with
    | none => .lookup .unknownPass none none
    | some p =>
      .lookup .done (some (n, p))
        (if p.state = .issued then (s.windowOf p).map fun w => (w.startMin, w.endMin, w.graceEnd) else none)

/-- The records LISTPASSES may list, rising (R130). -/
def State.listed (s : State) (r : Nat) (window : Option Nat) (cursor : Nat) : List (Nat × Pass) :=
  s.book.passes.filter fun np =>
    np.2.ride = r && (match window with | none => true | some i => np.2.window = i) && cursor ≤ np.1

/-- LISTPASSES (R130). A window index at or above the number of the ride's windows gives an empty page. `bad`, an undefined
bit in the presence byte (R178), is answered MALFORMED before the ride is looked for (the model's choice, log 36). -/
def listpassesReply (r : Nat) (window : Option Nat) (cursor : Nat) (bad : Bool) (s : State) : ReplyBody :=
  if bad then .listpasses .malformed none none
  else match s.units.find r with
    | none => .listpasses .unknownRide none none
    | some _ =>
      let all :=
        match window with
        | some i => if (s.rideBook r).windows.length ≤ i then [] else s.listed r window cursor
        | none => s.listed r window cursor
      let page := all.take Config.pageEntries
      .listpasses .done (some page)
        (if Config.pageEntries < all.length then page.getLast?.map fun np => np.1 + 1 else none)

/-- ACCOUNTINFO (R131). -/
def accountinfoReply (token : Nat) (s : State) : ReplyBody :=
  if token = 0 then .accountinfo .malformed none
  else match s.book.accounts.find token with
    | none => .accountinfo .done none
    | some a =>
      .accountinfo .done (some (token, a, a.active.filterMap fun n => (s.book.passes.find n).map (n, ·)))

end Sys2Proof.Machine
end

