-- ==== Sys2Proof/Machine/Lines.lean ====
section
/-! DEFINITION. Composition of board lines and the line frame (R142, R146 to R151, R153). -/

namespace Sys2Proof.Machine

/-! ### Texts of a ride (R147 to R150) -/

/-- Line 2 of a RIDE board, by STATE and published wait (R147). -/
def waitLine (state : RideState) (w : Option Wait) : Text :=
  match state with
  | .opened | .held _ =>
    match w with
    | some w =>
        txt ['W', 'A', 'I', 'T', ' '] ++ decimal w.value ++ (if w.plus then txt ['+'] else []) ++
          txt [' ', 'M', 'I', 'N']
    | none => txt ['W', 'A', 'I', 'T', ' ', '-', '-']
  | .closing => txt ['Q', 'U', 'E', 'U', 'E', ' ', 'C', 'L', 'O', 'S', 'E', 'D']
  | .testing _ => txt ['O', 'P', 'E', 'N', 'I', 'N', 'G', ' ', 'S', 'O', 'O', 'N']
  | .down _ =>
      txt ['T', 'E', 'M', 'P', 'O', 'R', 'A', 'R', 'I', 'L', 'Y', ' ', 'C', 'L', 'O', 'S', 'E', 'D']
  | .closed => txt ['C', 'L', 'O', 'S', 'E', 'D']

/-- Line 3 of a RIDE board, by the party-1 quote (R148). -/
def returnLine (q : Quote) : Text :=
  match q.code, q.window with
  | .done, some w => txt ['R', 'E', 'T', 'U', 'R', 'N', ' ', 'F', 'R', 'O', 'M', ' '] ++ hhmm w.startMin
  | .soldOut, _ => txt ['R', 'E', 'T', 'U', 'R', 'N', ' ', 'F', 'U', 'L', 'L']
  | _, _ => []

/-- The wait field of a HUB row (R149). -/
def waitField (state : RideState) (w : Option Wait) : Text :=
  match state with
  | .opened | .held _ =>
    match w with
    | some w => decimal w.value ++ (if w.plus then txt ['+'] else [])
    | none => txt ['-', '-']
  | .closing => txt ['L', 'A', 'S', 'T']
  | .testing _ => txt ['S', 'O', 'O', 'N']
  | .down _ => txt ['D', 'O', 'W', 'N']
  | .closed => txt ['C', 'L', 'O', 'S', 'E', 'D']

/-- The name of a ride fitted to 13 columns (R150). -/
def fittedName (fit : Fit) (r : Nat) (c : RideConfig) : Text :=
  match fit with
  | .fullFirst => if c.fullName.length ≤ 13 then c.fullName else c.shortName.getD (twoDigits r)
  | .shortFirst => c.shortName.getD (twoDigits r)

/-- A HUB row: the name in columns 1 to 13, a space, the wait field in columns 15 to 20 (R149). -/
def hubRow (fit : Fit) (r : Nat) (u : RideUnit) (w : Option Wait) : Text :=
  fillTo 13 (fittedName fit r u.config) ++ txt [' '] ++ leadTo 6 (waitField u.state w)

/-! ### Which ride a line shows (R136, R151) -/

/-- The pane and row of line `n` of a HUB board; none for a filler line (R136). -/
def paneRow (p q : Pane) (n : Nat) : Option (Pane × Nat) :=
  if n ≤ p.rows then some (p, n - 1)
  else if n ≤ p.rows + q.rows then some (q, n - 1 - p.rows)
  else none

/-- The ride a pane's row shows, on page PAGE modulo the page count then found (R151). -/
def Pane.rideAt (units : Table RideUnit) (p : Pane) (row : Nat) : Option Nat :=
  let list := p.effective units
  list[p.page % p.pages list * p.rows + row]?

/-! ### Composition (R146) -/

/-- What a composition gives a line: its text before filling out, and its SHOWN. -/
structure Composed where
  text : Text
  shown : Option Nat
deriving DecidableEq, Repr

/-- The default text of a line outside DAY (R146, case 2). -/
def defaultText (p : Params) (k : Kind) (n : Nat) : Text :=
  match k, n with
  | _, 1 => p.text1
  | .ride _, 2 => p.text2
  | .ride _, 3 => p.text3
  | _, _ => []

/-- The published wait of a ride. -/
def State.waitOf (s : State) (r : Nat) : Option Wait := (s.ests.find r).bind (·.wait)

/-- A line of a RIDE board in DAY (R147, R148). -/
def rideLine (r n : Nat) (s : State) : Composed :=
  match s.units.find r with
  | none => ⟨[], none⟩
  | some u =>
    match n with
    | 1 => ⟨u.config.fullName, some r⟩
    | 2 => ⟨waitLine u.state (s.waitOf r), some r⟩
    | _ => ⟨returnLine (s.quote r), some r⟩

/-- A line of a HUB board in DAY (R149 to R151). -/
def hubLine (p q : Pane) (n : Nat) (s : State) : Composed :=
  match paneRow p q n with
  | none => ⟨[], none⟩
  | some (pane, row) =>
    match pane.rideAt s.units row with
    | none => ⟨[], none⟩
    | some r =>
      match s.units.find r with
      | none => ⟨[], none⟩
      | some u => ⟨hubRow pane.fit r u (s.waitOf r), some r⟩

/-- The text of a line by the first case that applies: override, outside DAY, composed in DAY (R146). -/
def composeLine (b : Board) (n : Nat) (l : Line) (s : State) : Composed :=
  match l.override with
  | some o => ⟨o.text, none⟩
  | none =>
    if s.time.day = .day then
      match b.kind with
      | .ride r => rideLine r n s
      | .hub p q => hubLine p q n s
    else ⟨defaultText s.time.params b.kind n, none⟩

/-- A line record after its composition (R146, R153). -/
def Line.compose (c : Composed) (l : Line) : Line :=
  { l with shown := c.shown, lastText := some (fillTo Config.lineWidth c.text), blink := l.blink - 1 }

/-- A line is composed and its frame sent; the reply window opens (R142, R146, R153). -/
def sendLine (a n : Nat) (s : State) : State :=
  match s.boards.table.find a with
  | none => s
  | some b =>
    match b.line? n with
    | none => s
    | some l =>
      let c := composeLine b n l s
      let s' := s.modBoard a fun b => b.modLine n (Line.compose c)
      { s' with boards := { s'.boards with
          line := .outstanding a n
          pass := some (a, n)
          sent := lineFrame a n (blinkByte (0 < l.blink) s.time.params.blinkDuty) (fillTo Config.lineWidth c.text) } }

/-- The next line frame of the pass in progress is chosen, composed and sent; the pass ends when no line is left (R141,
R142). Nothing is sent while a frame is outstanding, the line is reserved, or no pass is in progress. -/
def sendNextLine (s : State) : State :=
  match s.boards.line, s.boards.pass with
  | .idle, some (a, l) =>
    match nextLine s.boards.table a l with
    | none => endPass s
    | some (a', n) => sendLine a' n s
  | _, _ => s

end Sys2Proof.Machine
end

