-- ==== Sys2Proof/Machine/Field.lean ====
section
/-! DEFINITION. The Field Poller: polls, judgement of replies, misses, link states, deltas and baselines, hand-over
(R43 to R58). -/

namespace Sys2Proof.Machine

/-! ### Link state changes (R49) -/

/-- An entry into LOST is reported to the Ride State Unit, the Flow Estimator and the Notice Unit (R49); `misses` is the
detail byte of R162. -/
def reportLost (r : Nat) (prev : Link) (misses : Nat) (s : State) : State :=
  reportLevel .link r true (saturate 255 misses) (estimatorLink r prev .lost (unitLink r .lost s))

/-! ### Misses (R47) -/

/-- A miss of the ride polled (R47). -/
def takePollMiss (r : Nat) (s : State) : State :=
  match s.poller.records.find r with
  | none => s
  | some f =>
    let m := saturate 255 (f.misses + 1)
    let s' := s.modField r fun f => { f with misses := m }
    if f.link ≠ .lost ∧ s.time.params.silencePolls ≤ m then
      reportLost r f.link m (s'.modField r fun f => { f with link := .lost, baseValid := false })
    else s'

/-! ### Good replies (R48 to R55) -/

/-- A counter's delta: the reply's value minus the baseline value, modulo 65,536 (R52). -/
def delta (now base : Nat) : Nat := (now + 65536 - base) % 65536

/-- The deltas of a reply (R52). -/
def Counters.since (now base : Counters) : Counters :=
  { entered := delta now.entered base.entered, standby := delta now.standby base.standby, ret := delta now.ret base.ret,
    dispatches := delta now.dispatches base.dispatches }

/-- Deltas within the fixed bounds; a delta equal to its bound passes (R53). -/
def Counters.plausible (d : Counters) : Bool :=
  d.entered ≤ Config.guestDeltaMax && d.standby ≤ Config.guestDeltaMax && d.ret ≤ Config.guestDeltaMax &&
  d.dispatches ≤ Config.dispatchDeltaMax

/-- The Flow Estimator takes the counts of a delta report and makes its Q-at-zero report (R61, R65). -/
def estimatorCounts (r : Nat) (d : Counters) (s : State) : State :=
  match s.units.find r with
  | none => s
  | some u => reportZero r (s.modEst r (Estimator.takeCounts (u.state = .closed) d.entered d.standby d.ret))

/-- The three kinds of a good reply (R51). -/
inductive ReplyKind where
  | baselineOnly
  | counted (deltas : Counters)
  | implausible
deriving DecidableEq, Repr

/-- The kind of a good reply, by the field record it finds (R51, R53). -/
def replyKind (f : FieldRecord) (rep : Report) : ReplyKind :=
  if f.baseValid then
    if (rep.counters.since f.base).plausible then .counted (rep.counters.since f.base) else .implausible
  else .baselineOnly

/-- The dispatch delta of a reply, which a delta report alone carries (R54, R55). -/
def ReplyKind.dispatches : ReplyKind → Option Nat
  | .counted d => some d.dispatches
  | .baselineOnly | .implausible => none

/-- GAP after a reply (R53). -/
def ReplyKind.gap (old : Nat) : ReplyKind → Nat
  | .implausible => saturate 255 (old + 1)
  | .baselineOnly | .counted _ => old

/-- What the Ride State Unit takes of a good reply: the link state change, then the report (R49, R54, R55). -/
def unitReply (r : Nat) (prev : Link) (code : Nat) (k : ReplyKind) (s : State) : State :=
  unitReport r code k.dispatches (if prev = .up then s else unitLink r .up s)

/-- What the Flow Estimator takes of a good reply: the link state change, then the counts of a delta report, or that an
implausible one makes the minute ineligible (R49, R53, R54, R55). -/
def estimatorReply (r : Nat) (prev : Link) (k : ReplyKind) (s : State) : State :=
  let s := if prev = .up then s else estimatorLink r prev .up s
  match k with
  | .baselineOnly => s
  | .counted d => estimatorCounts r d s
  | .implausible => s.modEst r fun e => { e with eligible := false }

/-- What the Notice Unit takes of a good reply: the fall of the LINK level, and the GAP event (R49, R53). -/
def noticeReply (r : Nat) (f : FieldRecord) (k : ReplyKind) (s : State) : State :=
  let s := if f.link = .lost then reportLevel .link r false (saturate 255 f.misses) s else s
  match k with
  | .implausible => reportEvent .gap r (k.gap f.gap) s
  | .baselineOnly | .counted _ => s

/-- A good reply is taken by the Ride State Unit and the Flow Estimator in either order, each taking its own parts in
theirs (R49, R54; log 4). -/
def handOver (r : Nat) (prev : Link) (code : Nat) (k : ReplyKind) (s : State) : State :=
  let x := s.takeHandover
  if x.1 then estimatorReply r prev k (unitReply r prev code k x.2)
  else unitReply r prev code k (estimatorReply r prev k x.2)

/-- A good reply is taken: link state, MISSES, LAST_CODE, baseline and GAP in the field record, then by its receivers (R48,
R51, R53, R56). -/
def takeGoodReply (r : Nat) (rep : Report) (s : State) : State :=
  match s.poller.records.find r with
  | none => s
  | some f =>
    let k := replyKind f rep
    handOver r f.link rep.code k (noticeReply r f k (s.modField r fun f =>
      { f with
        link := .up, misses := 0, lastCode := some rep.code, baseValid := true, base := rep.counters
        gap := k.gap f.gap }))

/-! ### The poll (R44 to R46) -/

/-- The configured ride polled after ride `r`: the next above it, else the lowest (R44). -/
def nextRide (rides : List Nat) (r : Nat) : Option Nat :=
  match rides.find? (r < ·) with
  | some r' => some r'
  | none => rides.head?

/-- The next poll is sent and its reply window opens (R44, R45, R184). While a poll is outstanding none is sent; with no
ride configured the line is quiet. A reserved line being sent on means that its reserved window has closed (R46). -/
def sendPoll (s : State) : State :=
  match s.poller.line with
  | .outstanding _ _ _ => s
  | .idle | .reserved =>
    match nextRide s.rides s.poller.last with
    | none => { s with poller := { s.poller with line := .idle } }
    | some r =>
      match s.poller.records.find r with
      | none => { s with poller := { s.poller with line := .idle } }
      | some f =>
        { s with poller := { s.poller with line := .outstanding r f.address [], last := r, sent := pollFrame f.address } }

/-- The poll ends by the judgement of the bytes of its window (R45). -/
def judgePoll (r address : Nat) (bytes : List Byte) (s : State) : State :=
  let s := { s with poller := { s.poller with line := .idle } }
  match judgeReport address bytes with
  | some rep => takeGoodReply r rep s
  | none => takePollMiss r s

/-- Bytes are received on the field line: in an open window they are gathered, and the poll is judged at the thirteenth;
bytes after it, and bytes outside a window, are discarded (R45, R46). -/
def takeFieldBytes (bytes : List Byte) (s : State) : State :=
  match s.poller.line with
  | .outstanding r address got =>
    let all := got ++ bytes
    if Config.reportBytes ≤ all.length then judgePoll r address (all.take Config.reportBytes) s
    else { s with poller := { s.poller with line := .outstanding r address all } }
  | .idle | .reserved => s

/-- The window closes after its last bytes: a poll not yet judged is a miss; a reserved line is free again (R45 to R47). -/
def closeFieldWindow (bytes : List Byte) (s : State) : State :=
  match s.poller.line with
  | .outstanding r address got =>
    let all := got ++ bytes
    if Config.reportBytes ≤ all.length then judgePoll r address (all.take Config.reportBytes) s
    else takePollMiss r { s with poller := { s.poller with line := .idle } }
  | .reserved => { s with poller := { s.poller with line := .idle } }
  | .idle => s

/-- The outstanding poll to a ride is abandoned: the line stays reserved (R46). -/
def abandonPoll (r : Nat) (s : State) : State :=
  match s.poller.line with
  | .outstanding r' _ _ => if r' = r then { s with poller := { s.poller with line := .reserved } } else s
  | .idle | .reserved => s

/-! ### FIELDINFO (R58) -/

/-- A poll to the ride is outstanding. -/
def State.polling (s : State) (r : Nat) : Bool :=
  match s.poller.line with
  | .outstanding r' _ _ => r' = r
  | .idle | .reserved => false

/-- FIELDINFO: one ride, or all rides for ride number 0 (R58). -/
def fieldinfoReply (r : Nat) (s : State) : ReplyBody :=
  if r = 0 then .fieldAll .done s.poller.records
  else match s.poller.records.find r with
    | none => .fieldOne .unknownRide none
    | some f => .fieldOne .done (some (r, f, s.polling r))

end Sys2Proof.Machine
end

