-- ==== Sys2Proof/Machine/Day.lean ====
section
/-! DEFINITION. The requests of the Time Base and the park day: SETCLOCK, OPENDAY, the end of the opening, CLOSEDAY,
CONFPARK (R3 to R13, R27, R67, R83, R85, R101, R133). -/

namespace Sys2Proof.Machine

/-! ### SETCLOCK (R3, R4) -/

/-- The fields of a SETCLOCK reply as they stand. -/
def setclockReply (o : Code) (s : State) : ReplyBody := .setclock o s.time.clock s.time.clockState s.time.hold

/-- DONE, or CLAMPED when something was clamped. -/
def doneOr (clamped : Bool) : Code := if clamped then .clamped else .done

/-- How far a value lies after CLOCK, counted around midnight: 0..86,399 (R4). -/
def ahead (value clock : Nat) : Nat := (value + Config.daySeconds - clock) % Config.daySeconds

/-- A correction of CLOCK in DAY by the distance `x` ahead: forward by at most 120 seconds, a hold of at most 120, or
none of these (R4). -/
def correct (x : Nat) (s : State) : Option State :=
  if x = 0 then some s
  else if x ≤ Config.correctionMax then some (advances x (clearEligible s))
  else if Config.daySeconds ≤ x + Config.correctionMax then
    some { clearEligible s with time := { s.time with hold := Config.daySeconds - x } }
  else none

/-- SETCLOCK outside DAY: CLOCK takes the value at once and no tick is delivered (R3). -/
def placeClock (value : Nat) (s : State) : State :=
  { s with time := { s.time with clock := value, clockState := .running, hold := 0 } }

/-- SETCLOCK (R3, R4). -/
def serveSetclock (given : Nat) (s : State) : Answer :=
  let value := saturate (Config.daySeconds - 1) given
  let taken := doneOr (value ≠ given)
  if s.time.day = .day then
    if 0 < s.time.hold then (s, setclockReply .busy s)
    else match correct (ahead value s.time.clock) s with
      | some s' => (s', setclockReply taken s')
      | none => (s, setclockReply .badState s)
  else (placeClock value s, setclockReply taken (placeClock value s))

/-! ### OPENDAY (R6, R7) -/

/-- The book is emptied, and each FLEX, SLOTS and BOOK level that falls is reported (R7, R101, R133). -/
def emptyBook (s : State) : State :=
  let s := { s with book :=
    { s.book with
      rides := s.book.rides.each fun _ b => { b with windows := [], f := 0, u := 0 }
      passes := [], retired := [], serial := 1, accounts := [], activeCount := 0 } }
  let s := s.book.rides.keys.foldl (fun s r => judgeSlots r (judgeFlex r s)) s
  let s := judgeBook s
  { s with book := { s.book with rides := [] } }

/-- The day plan of an OPENDAY, if check 4 passes (R6). `n` is min(96, the quotient). -/
def planFor (p : Params) (openMin closeMin : Nat) : Option Plan :=
  if closeMin ≤ openMin ∨ closeMin - openMin < 60 ∨ Config.dayMinutes - 1 < closeMin + p.gLate then none
  else some { openMin, closeMin, len := p.l, n := saturate Config.windowsMax ((closeMin - openMin) / p.l) }

/-- OPENDAY is taken with a plan (R6). The day schedule is built from the plan (R14). -/
def takeOpenday (tag : Nat) (outcome : Code) (plan : Plan) (s : State) : State :=
  let s := emptyBook s
  { s with time :=
      { s.time with
        day := .opening, plan := some plan, schedule := buildSchedule plan s.time.params.gLate, position := 0,
        closePassed := false, pendingOpen := some (tag, outcome), erase := some 0 } }

/-- OPENDAY (R6). A taken request is not answered now. -/
def serveOpenday (tag openGiven closeGiven : Nat) (s : State) : State × Option ReplyBody :=
  if s.time.day = .day ∨ s.time.day = .opening then (s, some (.openday .badState none))
  else if s.time.clockState = .unset then (s, some (.openday .noTime none))
  else
    let openMin := saturate (Config.dayMinutes - 1) openGiven
    let closeMin := saturate (Config.dayMinutes - 1) closeGiven
    match planFor s.time.params openMin closeMin with
    | none => (s, some (.openday .malformed none))
    | some plan =>
      let clamped := openMin ≠ openGiven ∨ closeMin ≠ closeGiven ∨ plan.n < (closeMin - openMin) / plan.len
      (takeOpenday tag (doneOr clamped) plan s, none)

/-! ### The end of the opening (R10) -/

/-- The window list of a configured ride as built (R84, R85). -/
def buildWindows (plan : Plan) (gLate : Nat) (u : RideUnit) : List Window :=
  (List.range plan.n).map (Window.build plan gLate u.config.c u.config.p)

/-- The ride record at the end of the opening (R27). -/
def RideUnit.opened (since : Option Nat) (u : RideUnit) : RideUnit :=
  { u with since := since, stall := 0, testDispatches := 0, testMinutes := 0 }

/-- The estimator records at the end of the opening (R83). -/
def openEstimators (units : Table RideUnit) (ests : Table Estimator) : Table Estimator :=
  ests.each fun r e => match units.find r with
    | some u => e.opened u.config.c u.config.p
    | none => e

/-- What holds when the erase has ended, before any day event is delivered (R10). -/
def openedState (plan : Plan) (s : State) : State :=
  { s with
    time := { s.time with day := .day, position := 0, openMarks := [], closePassed := false, erase := none }
    units := s.units.each fun _ u => u.opened s.clockNow
    ests := openEstimators s.units s.ests
    book := { s.book with
      rides := s.units.each fun _ u => { windows := buildWindows plan s.time.params.gLate u }
      serial := 1 } }

/-- A list event is delivered at the end of the opening, to each configured ride in turn (R10, R15, R25, R86, R93). -/
def deliverDue (s : State) (e : DayEvent) : State :=
  match e with
  | .parkClose => (setClosePassed s).rides.foldl (fun s r => parkCloseEvent r s) (setClosePassed s)
  | e => s.rides.foldl (fun s r => bookEvent r s e) s

/-- The list events already due at the current minute are delivered in clock order (R10). -/
def deliverDueEvents (s : State) : State :=
  let x := takeDue (fun minute => minute ≤ s.minute) s
  x.1.foldl deliverDue x.2

/-- The reply to OPENDAY is formed with the pending tag and outcome, and the pending tag cleared (R10). -/
def answerOpening (s : State) : State :=
  match s.time.pendingOpen with
  | none => s
  | some (tag, o) =>
    enterReply (.reply tag 2 (.openday o s.time.plan)) { s with time := { s.time with pendingOpen := none } }

/-- The erase has run its 2 s (R7). -/
def State.eraseOver (s : State) : Bool :=
  s.time.day = .opening && (match s.time.erase with | some n => Config.eraseSeconds ≤ n | none => false)

/-- The end of the opening erase (R10). -/
def endOpening (s : State) : State :=
  match s.time.plan with
  | some plan => if s.eraseOver then answerOpening (deliverDueEvents (openedState plan s)) else s
  | none => s

/-! ### CLOSEDAY (R11, R27) -/

/-- Every ISSUED and FLEX pass expires and retires, in increasing pass number, and every ACTIVE list is empty (R11). -/
def expireAll (s : State) : State :=
  let active : Table Pass := s.book.passes.filter fun np => np.2.state = .issued || np.2.state = .flex
  let s := active.keys.foldl (fun s n => retirePass n .expired s) s
  { s with book := { s.book with accounts := s.book.accounts.each fun _ a => { a with active := [] } } }

/-- Every window is resolved, F and U become 0, and the FLEX levels are judged (R11, R95, R101). -/
def resolveAll (s : State) : State :=
  let s := { s with book := { s.book with
    rides := s.book.rides.each fun _ b => { b with windows := b.windows.map Window.settle, f := 0, u := 0 } } }
  s.book.rides.keys.foldl (fun s r => judgeFlex r s) s

/-- A ride is closed by CLOSEDAY or SETRIDE CLOSE: the state change, the test counts and the stall timer (R27, R40). -/
def closeRide (r : Nat) (s : State) : State :=
  (enterState r .closed s).modUnit r fun u => { u with stall := 0, testDispatches := 0, testMinutes := 0 }

/-- CLOSEDAY's transition of a ride: a CLOSED ride only has its stall timer set to 0 (R27, R30; log 11). -/
def closeRideAtDayEnd (s : State) (r : Nat) : State :=
  match s.units.find r with
  | none => s
  | some u => if u.state = .closed then s.modUnit r fun u => { u with stall := 0 } else closeRide r s

/-- CLOSEDAY in DAY (R11). The Return Book takes its late reports after the resolution, so they mark nothing. -/
def takeCloseday (s : State) : State :=
  let s := { s with time := { s.time with schedule := [], position := 0 } }
  let s := takeLate (fun _ => true) (resolveAll (expireAll s))
  let s := s.rides.foldl closeRideAtDayEnd s
  judgeBook { s with time := { s.time with day := .after } }

/-- CLOSEDAY (R11). OPENING is answered at the gate (R8). -/
def serveCloseday (s : State) : Answer :=
  match dayRefusal s.time.day with
  | some c => (s, .closeday c)
  | none => (takeCloseday s, .closeday .done)

/-! ### CONFPARK (R12, R13) -/

/-- The listed value nearest to a value, the smaller of two equally near; the list is rising (R13). -/
def nearest (v : Nat) : List Nat → Nat
  | [] => v
  | [x] => x
  | x :: y :: ys => if distance v x ≤ distance v y then x else nearest v (y :: ys)

/-- The parameter set as stored for the values given (R12, R13). -/
def storedParams (g : Params) : Params :=
  let step := nearest g.step [1, 5, 10]
  { k := clampTo 1 16 g.k
    l := nearest g.l [5, 10, 15, 20, 30, 60]
    step := step
    postMax := clampTo 30 240 g.postMax / step * step
    hyst := clampTo 0 30 g.hyst
    jump := clampTo 0 120 g.jump
    staleHold := clampTo 0 30 g.staleHold
    silencePolls := clampTo 3 20 g.silencePolls
    lead := clampTo 0 120 g.lead
    gEarly := clampTo 0 15 g.gEarly
    gLate := clampTo 0 60 g.gLate
    a := clampTo 1 4 g.a
    d := clampTo 0 255 g.d
    slotLow := clampTo 0 999 g.slotLow
    passInterval := clampTo 1 10 g.passInterval
    blinkPasses := clampTo 0 15 g.blinkPasses
    blinkDuty := nearest g.blinkDuty [25, 50, 75]
    text1 := fillTo Config.lineWidth g.text1
    text2 := fillTo Config.lineWidth g.text2
    text3 := fillTo Config.lineWidth g.text3 }

/-- A DEFAULT_TEXT line is well formed (R13). -/
def lineText (t : Text) : Bool := printable t && t.length ≤ Config.lineWidth

/-- CONFPARK is well formed (R13). -/
def paramsWellFormed (g : Params) : Bool := lineText g.text1 && lineText g.text2 && lineText g.text3

/-- A stored value differs from the value given, filling of a text line apart (R13). -/
def paramsChanged (g : Params) : Bool :=
  { storedParams g with text1 := g.text1, text2 := g.text2, text3 := g.text3 } ≠ g

/-- CONFPARK (R13). The day state is checked before the structure (log 17). -/
def serveConfpark (g : Params) (s : State) : Answer :=
  if s.time.day = .day ∨ s.time.day = .opening then (s, .confpark .badState s.time.params)
  else if paramsWellFormed g then
    ({ s with time := { s.time with params := storedParams g } }, .confpark (doneOr (paramsChanged g)) (storedParams g))
  else (s, .confpark .malformed s.time.params)

end Sys2Proof.Machine
end

