-- ==== Sys2Proof/Machine/RideRequests.lean ====
section
/-! DEFINITION. The requests about a ride: CONFRIDE, SETRIDE, SETQUEUE, RIDEINFO, SETWINDOW, WINDOWINFO (R19 to R22, R38 to
R41, R57, R63, R64, R82, R88, R89, R100). -/

namespace Sys2Proof.Machine

/-! ### CONFRIDE: checks (R20) -/

/-- The configuration record of a ride, absent while the ride is unconfigured. -/
def State.configOf (s : State) (r : Nat) : Option RideConfig := (s.units.find r).map (·.config)

/-- A ride number 1..48 (R18). -/
def rideInRange (r : Nat) : Bool := 1 ≤ r && r ≤ Config.rides

/-- FULL_NAME as a CONFRIDE may carry it (R20, check 3). -/
def fullNameText (t : Text) : Bool := printable t && !t.isEmpty && t.length ≤ 20

/-- SHORT_NAME as a CONFRIDE may carry it (R20, check 3). -/
def shortNameText (t : Text) : Bool := printable t && t.length ≤ 10

/-- Another configured ride has the FIELD_ADDRESS (R20, check 3). -/
def State.addressTaken (s : State) (r address : Nat) : Bool :=
  s.units.any fun ru => ru.1 ≠ r && ru.2.config.fieldAddress = address

/-- The structure of a CONFRIDE's fields (R20, check 3). -/
def State.fieldsMalformed (s : State) (r : Nat) (f : RideFields) : Bool :=
  (match f.fullName with | some t => !fullNameText t | none => false) ||
  (match f.shortName with | some (some t) => !shortNameText t | _ => false) ||
  (match f.fieldAddress with | some a => a = 0 || a = 255 || s.addressTaken r a | none => false)

/-- The fields C, P and WALK are the only ones present (R20, check 5). -/
def onlyCapacity (f : RideFields) : Bool :=
  ({ f with c := none, p := none, walk := none } : RideFields) = {}

/-- A board names the ride (R20, check 6). -/
def State.boardNames (s : State) (r : Nat) : Bool := s.boards.table.any fun ab => ab.2.kind.names r

/-- The refusal of a CONFRIDE by R20; `bad` tells of undefined flag bits (R178). -/
def State.confrideRefusal (s : State) (r : Nat) (remove : Bool) (f : RideFields) (bad : Bool) : Option Code :=
  if s.time.day = .opening then some .busy
  else if !rideInRange r then some .unknownRide
  else if bad || (remove && f ≠ {}) || s.fieldsMalformed r f then some .malformed
  else match s.units.find r with
    | none =>
      if remove || f.fullName.isNone || f.fieldAddress.isNone then some .unknownRide
      else if s.time.day = .day then some .badState
      else none
    | some u =>
      if s.time.day = .day && (remove || (u.state ≠ .closed && !onlyCapacity f)) then some .badState
      else if remove && s.boardNames r then some .badState
      else none

/-! ### CONFRIDE: values (R19, R21) -/

/-- The configuration record at creation before the fields given are stored (R19). FULL_NAME and FIELD_ADDRESS have no
default, and a creation gives them. -/
def RideConfig.default : RideConfig :=
  { fullName := [], shortName := none, fieldAddress := 0, c := 0, p := 4, walk := 0, opensAt := none, auto := true,
    codePersist := 10, clearPersist := 60, stallTime := 180, downAfter := 15, testDispatches := 3, testMinutes := 5 }

/-- The fields as stored: each numeric one clamped to its range (R21). -/
def clampFields (f : RideFields) : RideFields :=
  { f with
    c := f.c.map (clampTo 0 9999)
    p := f.p.map (clampTo 0 12)
    walk := f.walk.map (clampTo 0 30)
    opensAt := f.opensAt.map (·.map (clampTo 0 1439))
    codePersist := f.codePersist.map (clampTo 2 120)
    clearPersist := f.clearPersist.map (clampTo 10 600)
    stallTime := f.stallTime.map (clampTo 30 900)
    downAfter := f.downAfter.map (clampTo 1 60)
    testDispatches := f.testDispatches.map (clampTo 0 20)
    testMinutes := f.testMinutes.map (clampTo 0 30) }

/-- The present fields replace the stored ones (R21). -/
def RideConfig.store (f : RideFields) (c : RideConfig) : RideConfig :=
  { fullName := f.fullName.getD c.fullName
    shortName := f.shortName.getD c.shortName
    fieldAddress := f.fieldAddress.getD c.fieldAddress
    c := f.c.getD c.c
    p := f.p.getD c.p
    walk := f.walk.getD c.walk
    opensAt := f.opensAt.getD c.opensAt
    auto := f.auto.getD c.auto
    codePersist := f.codePersist.getD c.codePersist
    clearPersist := f.clearPersist.getD c.clearPersist
    stallTime := f.stallTime.getD c.stallTime
    downAfter := f.downAfter.getD c.downAfter
    testDispatches := f.testDispatches.getD c.testDispatches
    testMinutes := f.testMinutes.getD c.testMinutes }

/-! ### CONFRIDE: creation (R21, R43, R57, R60) -/

/-- A ride record at creation (R21). -/
def RideUnit.fresh (c : RideConfig) (since : Option Nat) : RideUnit :=
  { config := c, state := .closed, since := since, stall := 0, fault := 0, clear := 0, codeLevel := false,
    testDispatches := 0, testMinutes := 0 }

/-- A field record at creation (R43). -/
def FieldRecord.fresh (address : Nat) : FieldRecord :=
  { address, link := .never, misses := 0, baseValid := false,
    base := { entered := 0, standby := 0, ret := 0, dispatches := 0 }, lastCode := none, gap := 0 }

/-- A ride is created: its ride, field and estimator records are made, and it has no windows (R21, R57, R60, R100;
log 15). -/
def createRide (r : Nat) (c : RideConfig) (s : State) : State :=
  { s with
    units := s.units.put r (RideUnit.fresh c s.clockNow)
    poller := { s.poller with records := s.poller.records.put r (FieldRecord.fresh c.fieldAddress) }
    ests := s.ests.put r (Estimator.fresh c.c c.p)
    book := { s.book with rides := s.book.rides.remove r } }

/-! ### CONFRIDE: update (R21, R57, R88) -/

/-- CAP of a window not yet started takes the computed value, or ISSUED + HOLD where that is higher (R88). -/
def Window.recompute (v : Nat) (w : Window) : Window := if w.started then w else w.setCap v

/-- A recompute raises the window's CAP above its computed value (R88). -/
def Window.raised (v : Nat) (w : Window) : Bool := !w.started && v < w.issued + w.hold

/-- The computed CAP of a ride's windows for a configuration record (R85, R88). -/
def State.computedCap (s : State) (c : RideConfig) : Nat :=
  capFormula c.c c.p (match s.time.plan with | some p => p.len | none => 0)

/-- The Return Book is told of a change of C or P in DAY: capacity, placement, and the levels (R88, R95, R99). -/
def recomputeCaps (r : Nat) (c : RideConfig) (s : State) : State :=
  let v := s.computedCap c
  judgeSlots r (judgeFlex r (place r (s.modBook r fun b => { b with windows := b.windows.map (Window.recompute v) })))

/-- The Field Poller takes a change of FIELD_ADDRESS (R46, R57). -/
def changeAddress (r address : Nat) (s : State) : State :=
  abandonPoll r (s.modField r fun f => { f with address := address, baseValid := false, misses := 0 })

/-- A configured ride takes a new configuration record, and the receivers take what changed (R21). The flag tells whether
a window's CAP was raised above its computed value. -/
def updateRide (r : Nat) (old new : RideConfig) (s : State) : State × Bool :=
  let s := s.modUnit r fun u => { u with config := new }
  let s := if new.fieldAddress = old.fieldAddress then s else changeAddress r new.fieldAddress s
  if s.time.day = .day ∧ ¬(new.c = old.c ∧ new.p = old.p) then
    (recomputeCaps r new s, (s.rideBook r).windows.any (Window.raised (s.computedCap new)))
  else (s, false)

/-- CONFRIDE without REMOVE, taken (R21). -/
def storeRide (r : Nat) (f : RideFields) (s : State) : Answer :=
  let stored := clampFields f
  match s.units.find r with
  | none =>
    let c := RideConfig.default.store stored
    (createRide r c s, .confride (doneOr (stored ≠ f)) (some c))
  | some u =>
    let c := u.config.store stored
    let x := updateRide r u.config c s
    (x.1, .confride (doneOr (stored ≠ f || x.2)) (some c))

/-- CONFRIDE with REMOVE, taken (R22, R57, R60, R164). -/
def removeRide (r : Nat) (s : State) : State :=
  rideGone r (abandonPoll r
    { s with
      units := s.units.remove r
      poller := { s.poller with records := s.poller.records.remove r }
      ests := s.ests.remove r })

/-- CONFRIDE (R20 to R22). -/
def serveConfride (r : Nat) (remove : Bool) (f : RideFields) (bad : Bool) (s : State) : Answer :=
  match s.confrideRefusal r remove f bad with
  | some c => (s, .confride c (s.configOf r))
  | none => if remove then (removeRide r s, .confride .done none) else storeRide r f s

/-! ### SETRIDE (R38 to R41) -/

/-- The actions of SETRIDE, in the order of R38. -/
inductive RideAction where
  | openRide | hold | resume | down | clear | lastentry | close
deriving DecidableEq, Repr

/-- The action of a code; none for an unknown action (R183). -/
def RideAction.ofNumber : Nat → Option RideAction
  | 0 => some .openRide | 1 => some .hold | 2 => some .resume | 3 => some .down | 4 => some .clear
  | 5 => some .lastentry | 6 => some .close
  | _ => none

/-- The action is permitted from a STATE (R38). -/
def RideAction.permitted (a : RideAction) (st : RideState) : Bool :=
  match a with
  | .openRide => st = .closed
  | .hold => st = .opened
  | .resume => st.isHeld
  | .down => st ≠ .closed
  | .clear => st.isDown
  | .lastentry => st = .opened || st.isHeld
  | .close => st ≠ .closed

/-- The action's transition (R39, R40). DOWN from DOWN with CAUSE OPERATIONS changes nothing. -/
def RideAction.act (a : RideAction) (r : Nat) (st : RideState) (s : State) : State :=
  match a with
  | .openRide => enterState r (.testing .fromClosed) s
  | .hold => enterState r (.held .operations) s
  | .resume => enterState r .opened s
  | .down => if st = .down .operations then s else enterState r (.down .operations) s
  | .clear => enterState r (.testing .fromDown) s
  | .lastentry => enterState r .closing s
  | .close => closeRide r s

/-- STATE, CAUSE and STATE_SINCE as a SETRIDE reply shows them (R41). -/
def State.shownState (s : State) (r : Nat) : Option (RideState × Option Nat) :=
  (s.units.find r).map fun u => (u.state, u.since)

/-- SETRIDE (R38 to R41). -/
def serveSetride (r action guard operand : Nat) (s : State) : Answer :=
  match dayRefusal s.time.day with
  | some c => (s, .setride c r none)
  | none =>
    match RideAction.ofNumber action with
    | none => (s, .setride .malformed r none)
    | some a =>
      if guardReserved guard then (s, .setride .malformed r none)
      else match s.units.find r with
        | none => (s, .setride .unknownRide r none)
        | some u =>
          if a.permitted u.state = false then (s, .setride .badState r (s.shownState r))
          else if s.guardHolds guard operand r = false then (s, .setride .guardFalse r (s.shownState r))
          else
            let s' := a.act r u.state s
            (s', .setride .done r (s'.shownState r))

/-! ### SETQUEUE (R63, R64) -/

/-- Q and the published wait as a SETQUEUE reply shows them (R64). -/
def State.shownQueue (s : State) (r : Nat) : Option (Nat × Option Wait) :=
  (s.ests.find r).map fun e => (e.q, e.wait)

/-- Q takes a value, RENEW is set, and the Q-at-zero report is made (R61, R64). -/
def takeSetqueue (r q : Nat) (s : State) : State :=
  reportZero r (s.modEst r fun e => { e with q := q, renew := true })

/-- SETQUEUE (R63, R64). -/
def serveSetqueue (r guard operand q : Nat) (s : State) : Answer :=
  match dayRefusal s.time.day with
  | some c => (s, .setqueue c r none)
  | none =>
    if guardReserved guard then (s, .setqueue .malformed r none)
    else match s.units.find r with
      | none => (s, .setqueue .unknownRide r none)
      | some u =>
        if u.state = .closed then (s, .setqueue .badState r (s.shownQueue r))
        else if s.guardHolds guard operand r = false then (s, .setqueue .guardFalse r (s.shownQueue r))
        else
          let s' := takeSetqueue r (saturate Config.queueMax q) s
          (s', .setqueue (doneOr (Config.queueMax < q)) r (s'.shownQueue r))

/-! ### RIDEINFO (R82) -/

/-- RIDEINFO (R82). The items of all blocks are read at one moment, so a report between two blocks' reads, which R82 allows,
is never seen by one and not by the other (the model's choice, DESIGN CHOICE, log 44). -/
def rideinfoReply (r : Nat) (s : State) : ReplyBody :=
  match s.units.find r, s.poller.records.find r, s.ests.find r with
  | some u, some f, some e =>
    .rideinfo .done (some { ride := r, unit := u, link := f.link, lastCode := f.lastCode, est := e })
  | _, _, _ => .rideinfo .unknownRide none

/-! ### SETWINDOW (R89) -/

/-- The windows of a range as a SETWINDOW reply shows them (R89). -/
def State.windowRange (s : State) (r first last : Nat) : List Window :=
  ((s.rideBook r).windows.drop first).take (last + 1 - first)

/-- CAP of one window of the range (R89). -/
def Window.setInRange (first last v : Nat) (w : Window) : Window :=
  if first ≤ w.index ∧ w.index ≤ last then w.setCap v else w

/-- SETWINDOW, taken: capacity, placement, and the levels (R89, R95, R99). -/
def takeSetwindow (r first last v : Nat) (s : State) : State :=
  judgeSlots r (judgeFlex r (place r
    (s.modBook r fun b => { b with windows := b.windows.map (Window.setInRange first last v) })))

/-- SETWINDOW (R89). N is the length of the ride's list. -/
def serveSetwindow (r guard operand firstGiven lastGiven capacity : Nat) (s : State) : Answer :=
  match dayRefusal s.time.day with
  | some c => (s, .setwindow c r none)
  | none =>
    if guardReserved guard then (s, .setwindow .malformed r none)
    else match s.units.find r with
      | none => (s, .setwindow .unknownRide r none)
      | some _ =>
        let top := (s.rideBook r).windows.length - 1
        let first := saturate top firstGiven
        let last := saturate top lastGiven
        if last < first then (s, .setwindow .malformed r none)
        else if (s.windowRange r first last).any (·.resolved) then
          (s, .setwindow .badState r (some (first, last, s.windowRange r first last)))
        else if s.guardHolds guard operand r = false then
          (s, .setwindow .guardFalse r (some (first, last, s.windowRange r first last)))
        else
          let v := saturate Config.capMax capacity
          let clamped := top < firstGiven || top < lastGiven || Config.capMax < capacity ||
            (s.windowRange r first last).any fun w => v < w.issued + w.hold
          let s' := takeSetwindow r first last v s
          (s', .setwindow (doneOr clamped) r (some (first, last, s'.windowRange r first last)))

/-! ### WINDOWINFO (R100) -/

/-- What WINDOWINFO shows of a configured ride from an index on (R100). -/
def State.windowView (s : State) (r first : Nat) : WindowView :=
  let b := s.rideBook r
  let page := (b.windows.drop first).take Config.pageEntries
  { ride := r, count := b.windows.length, len := s.time.plan.map (·.len), f := b.f, u := b.u,
    flexLevel := b.flexLevel, slotsLevel := b.slotsLevel, lead := leadIndex b s.minute, windows := page,
    next := if first + page.length < b.windows.length then some (first + page.length) else none }

/-- WINDOWINFO (R100). -/
def windowinfoReply (r first : Nat) (s : State) : ReplyBody :=
  match s.units.find r with
  | none => .windowinfo .unknownRide none
  | some _ => .windowinfo .done (some (s.windowView r first))

end Sys2Proof.Machine
end

