-- ==== Sys2Proof/Machine/BoardRequests.lean ====
section
/-! DEFINITION. The requests about a board: CONFBOARD, CONFPANE, BOARDTEXT, BOARDINFO (R137 to R139, R154, R156). -/

namespace Sys2Proof.Machine

/-! ### CONFBOARD (R137, R138) -/

/-- A board address 1..64 (R134). -/
def boardInRange (a : Nat) : Bool := 1 ≤ a && a ≤ Config.boards

/-- What a CONFBOARD asks for, its structure being sound (R137, check 2). -/
inductive BoardOrder where
  | remove
  | ride (ride : Nat)
  | hub
deriving DecidableEq, Repr

/-- Check 2 of CONFBOARD: the codes of KIND are 0 RIDE and 1 HUB (R137, R178, R183). -/
def boardOrder (remove : Bool) (kind ride : Option Nat) (bad : Bool) : Option BoardOrder :=
  if bad then none
  else match remove, kind, ride with
    | true, none, none => some .remove
    | false, some 0, some r => some (.ride r)
    | false, some 1, none => some .hub
    | _, _, _ => none

/-- ADDRESS, KIND and RIDE as a CONFBOARD reply shows them (R137). -/
def State.shownBoard (s : State) (a : Nat) : Option (Nat × Kind) :=
  (s.boards.table.find a).map fun b => (a, b.kind)

/-- The refusal of a CONFBOARD by checks 3 to 5 (R137). -/
def State.confboardRefusal (s : State) (a : Nat) (o : BoardOrder) : Option Code :=
  if !boardInRange a then some .unknownBoard
  else match o with
    | .remove => if (s.boards.table.find a).isNone then some .unknownBoard else none
    | .ride r => if (s.units.find r).isNone then some .unknownRide else none
    | .hub => none

/-- Both boards are of one KIND. -/
def Kind.same : Kind → Kind → Bool
  | .ride _, .ride _ | .hub _ _, .hub _ _ => true
  | _, _ => false

/-- A board record takes a new KIND: its lines are made anew, presence and level are kept (R138). -/
def Board.rekind (k : Kind) (b : Board) : Board := { b with kind := k, lines := k.freshLines }

/-- A board is created, or takes a KIND (R138). `k` is the KIND with fresh panes. -/
def setBoard (a : Nat) (k : Kind) (s : State) : State :=
  match s.boards.table.find a with
  | none => { s with boards := { s.boards with table := s.boards.table.put a (Board.fresh k) } }
  | some b =>
    if b.kind.same k then
      match k with
      | .ride _ => s.modBoard a fun b => { b with kind := k }
      | .hub _ _ => s
    else abandonFrame a (s.modBoard a (Board.rekind k))

/-- A board is removed (R138, R141, R143, R164). -/
def removeBoard (a : Nat) (s : State) : State :=
  match s.boards.table.find a with
  | none => s
  | some b =>
    let s := passOver a (abandonFrame a { s with boards := { s.boards with table := s.boards.table.remove a } })
    if b.level then boardGone a s else s

/-- A CONFBOARD that passes its checks (R138). -/
def takeConfboard (a : Nat) (o : BoardOrder) (s : State) : State :=
  match o with
  | .remove => removeBoard a s
  | .ride r => setBoard a (.ride r) s
  | .hub => setBoard a (.hub Pane.fresh Pane.fresh) s

/-- CONFBOARD (R137, R138). OPENING is answered at the gate (R8). -/
def serveConfboard (a : Nat) (remove : Bool) (kind ride : Option Nat) (bad : Bool) (s : State) : Answer :=
  match boardOrder remove kind ride bad with
  | none => (s, .confboard .malformed (s.shownBoard a))
  | some o =>
    match s.confboardRefusal a o with
    | some c => (s, .confboard c (s.shownBoard a))
    | none => (takeConfboard a o s, .confboard .done ((takeConfboard a o s).shownBoard a))

/-! ### CONFPANE (R139) -/

/-- The operands of a CONFPANE after address and pane number. -/
structure PaneOps where
  list : List Nat
  rows : Nat
  pagePasses : Nat
  skipClosed : Bool
  fit : Nat
deriving DecidableEq, Repr

/-- The FIT of a code; none for an unknown one (R183). -/
def Fit.ofNumber : Nat → Option Fit
  | 0 => some .fullFirst
  | 1 => some .shortFirst
  | _ => none

/-- No number stands twice in a list. -/
def distinct : List Nat → Bool
  | [] => true
  | x :: xs => !xs.contains x && distinct xs

/-- One of the two panes of a board; none for a RIDE board or another pane number. -/
def Kind.pane? : Kind → Nat → Option Pane
  | .hub p _, 1 => some p
  | .hub _ q, 2 => some q
  | _, _ => none

/-- One pane of a board is replaced. -/
def Kind.setPane (p : Pane) : Kind → Nat → Kind
  | .hub _ q, 1 => .hub p q
  | .hub p1 _, 2 => .hub p1 p
  | k, _ => k

/-- The pane record of an address as a CONFPANE reply shows it: absent where there is no such pane (R139; log 12). -/
def State.shownPane (s : State) (a n : Nat) : Option Pane := (s.boards.table.find a).bind fun b => b.kind.pane? n

/-- The pane a CONFPANE stores (R139). -/
def PaneOps.pane (o : PaneOps) (fit : Fit) : Pane :=
  { list := o.list, rows := clampTo 1 8 o.rows, pagePasses := clampTo 1 255 o.pagePasses, skipClosed := o.skipClosed,
    fit := fit, page := 0, pageCount := 0 }

/-- A value of a CONFPANE is clamped (R139). -/
def PaneOps.clamped (o : PaneOps) : Bool := clampTo 1 8 o.rows ≠ o.rows || clampTo 1 255 o.pagePasses ≠ o.pagePasses

/-- CONFPANE (R139). OPENING is answered at the gate (R8). -/
def serveConfpane (a n : Nat) (o : PaneOps) (bad : Bool) (s : State) : Answer :=
  match Fit.ofNumber o.fit with
  | none => (s, .confpane .malformed a n (s.shownPane a n))
  | some fit =>
    if bad || !(n = 1 || n = 2) || 24 < o.list.length || !distinct o.list then
      (s, .confpane .malformed a n (s.shownPane a n))
    else match s.boards.table.find a with
      | none => (s, .confpane .unknownBoard a n none)
      | some b =>
        if (b.kind.pane? n).isNone then (s, .confpane .badState a n none)
        else if o.list.any fun r => (s.units.find r).isNone then
          (s, .confpane .unknownRide a n (s.shownPane a n))
        else
          (s.modBoard a fun b => { b with kind := b.kind.setPane (o.pane fit) n },
            .confpane (doneOr o.clamped) a n (some (o.pane fit)))

/-! ### BOARDTEXT (R154) -/

/-- The operands of a BOARDTEXT after address and line number. -/
structure TextOps where
  action : Nat
  text : Text
  duration : Nat
  blink : Bool
deriving DecidableEq, Repr

/-- OVERRIDE and OVERRIDE_LEFT of a line as a BOARDTEXT reply shows them. -/
def State.shownOverride (s : State) (a n : Nat) : Option Override :=
  ((s.boards.table.find a).bind fun b => b.line? n).bind (·.override)

/-- Check 1 of BOARDTEXT: actions are 0 SET and 1 RELEASE (R154, R178). -/
def TextOps.malformed (o : TextOps) : Bool :=
  2 ≤ o.action || (o.action = 1 && !o.text.isEmpty) || Config.lineWidth < o.text.length || !printable o.text

/-- OVERRIDE_LEFT of a duration: 0 is until released, and more than 1,440 is clamped (R154). -/
def leftOf (duration : Nat) : Left :=
  if duration = 0 then .untilReleased else .minutes (saturate Config.overrideMax duration)

/-- SET in one line record (R154, R153). -/
def Line.set (o : TextOps) (passes : Nat) (l : Line) : Line :=
  { l with
    override := some { text := fillTo Config.lineWidth o.text, left := leftOf o.duration }
    blink := if o.blink then passes else l.blink }

/-- BOARDTEXT, taken, in one line record (R154). -/
def Line.takeText (o : TextOps) (passes : Nat) (l : Line) : Line :=
  if o.action = 0 then l.set o passes else { l with override := none }

/-- BOARDTEXT (R154). -/
def serveBoardtext (a n : Nat) (o : TextOps) (bad : Bool) (s : State) : Answer :=
  if bad || o.malformed then (s, .boardtext .malformed a n (s.shownOverride a n))
  else match s.boards.table.find a with
    | none => (s, .boardtext .unknownBoard a n none)
    | some b =>
      if n = 0 ∨ b.kind.lineCount < n then (s, .boardtext .malformed a n none)
      else
        let s' := s.modBoard a fun b => b.modLine n (Line.takeText o s.time.params.blinkPasses)
        (s', .boardtext (doneOr (o.action = 0 && Config.overrideMax < o.duration)) a n (s'.shownOverride a n))

/-! ### BOARDINFO (R156) -/

/-- The line frame outstanding, with its board and line. -/
def State.frameOut (s : State) : Option (Nat × Nat) :=
  match s.boards.line with
  | .outstanding a n => some (a, n)
  | .idle | .reserved => none

/-- BOARDINFO (R156). -/
def boardinfoReply (a : Nat) (s : State) : ReplyBody :=
  if a = 0 then .boardAll .done s.boards.pass.isSome s.boards.due s.frameOut s.boards.table
  else match s.boards.table.find a with
    | none => .boardOne .unknownBoard none
    | some b => .boardOne .done (some (a, b, s.frameOut.any fun f => f.1 = a))

end Sys2Proof.Machine
end

