-- ==== Sys2Proof/Machine/NoticeRequests.lean ====
section
/-! DEFINITION. The requests about notices: CONFNOTE, CLEARNOTE, NOTEINFO (R163 to R167). -/

namespace Sys2Proof.Machine

/-- The byte of class ALL and of source number ALL (R183). -/
def noteAllByte : Nat := 255

/-! ### Entries (R165) -/

/-- A class and source number are sound: ALL goes with ALL, and a source lies in the range of its class (R165, step 2). -/
def noteTarget (cls src : Nat) : Bool :=
  if cls = noteAllByte then src = noteAllByte
  else match NoteClass.ofNumber cls with
    | none => false
    | some c => src = noteAllByte || c.sources.contains src

/-- The class of a byte is a level class. -/
def levelClass (cls : Nat) : Bool :=
  match NoteClass.ofNumber cls with
  | some c => c.isLevel
  | none => false

/-- An entry of CONFNOTE is sound (R165, step 2). Mask actions are 0 SET, 1 CLEAR, 2 KEEP; edge actions 0 RISE, 1 BOTH,
2 KEEP. -/
def noteEntrySound (e : NoteEntry) : Bool :=
  noteTarget e.cls e.src && e.mask ≤ 2 && e.edge ≤ 2 && (e.edge = 2 || levelClass e.cls)

/-- The slots an entry covers: classes in the order of R158, sources increasing (R165). -/
def coveredSlots (cls src : Nat) : List SlotId :=
  let classes := if cls = noteAllByte then NoteClass.all else (NoteClass.ofNumber cls).toList
  classes.flatMap fun c => (if src = noteAllByte then c.sources else [src]).map fun n => { cls := c, src := n }

/-! ### CONFNOTE (R165) -/

/-- Mask SET on a slot: it leaves the send list (R165). -/
def setMask (id : SlotId) (s : State) : State := leaveSendList id (s.setSlot id { s.slot id with mask := true })

/-- Mask CLEAR on a slot: a withheld record becomes due (R165). -/
def clearMask (id : SlotId) (s : State) : State :=
  let s' := s.setSlot id { s.slot id with mask := false }
  if (s.slot id).mask && (s.slot id).pending.isSome && !(s.slot id).sent then joinSendList id s' else s'

/-- A mask action on one slot (R165). -/
def maskAction (action : Nat) (s : State) (id : SlotId) : State :=
  match action with
  | 0 => setMask id s
  | 1 => clearMask id s
  | _ => s

/-- An edge action stores the setting of a class (R165). -/
def edgeAction (action cls : Nat) (s : State) : State :=
  match NoteClass.ofNumber cls, action with
  | some c, 0 => { s with notices := { s.notices with edges := s.notices.edges.set .rise c } }
  | some c, 1 => { s with notices := { s.notices with edges := s.notices.edges.set .both c } }
  | _, _ => s

/-- One entry is applied (R165). -/
def applyNote (s : State) (e : NoteEntry) : State :=
  (coveredSlots e.cls e.src).foldl (maskAction e.mask) (edgeAction e.edge e.cls s)

/-- CONFNOTE (R165). OPENING is answered at the gate (R8). A MALFORMED reply carries 0 entries applied and the length of the
send list as it stands (the model's choice, DESIGN CHOICE, log 45). -/
def serveConfnote (es : List NoteEntry) (s : State) : Answer :=
  if Config.noteEntries < es.length || !es.all noteEntrySound then
    (s, .confnote .malformed 0 s.notices.sendList.length)
  else
    let s' := es.foldl applyNote s
    (s', .confnote .done es.length s'.notices.sendList.length)

/-! ### CLEARNOTE (R166) -/

/-- The pending flag of one slot is cleared, with what goes with it; the count tells whether it was set (R166). -/
def clearSlot (x : State × Nat) (id : SlotId) : State × Nat :=
  if (x.1.slot id).pending.isSome then
    (leaveSendList id (x.1.setSlot id { x.1.slot id with pending := none, sent := false }), x.2 + 1)
  else x

/-- CLEARNOTE (R166). A MALFORMED reply carries 0 flags cleared (the model's choice, DESIGN CHOICE, log 45). -/
def serveClearnote (es : List ClearEntry) (s : State) : Answer :=
  if Config.noteEntries < es.length || !es.all fun e => noteTarget e.cls e.src then (s, .clearnote .malformed 0)
  else
    let x := es.foldl (fun x e => (coveredSlots e.cls e.src).foldl clearSlot x) (s, 0)
    (x.1, .clearnote .done x.2)

/-! ### NOTEINFO (R167) -/

/-- The slots of a class with their places on the send list, in increasing source number. -/
def State.classSlots (s : State) (c : NoteClass) : List (Slot × Bool) :=
  c.sources.map fun n =>
    (s.slot { cls := c, src := n }, s.notices.sendList.contains { cls := c, src := n })

/-- The counts of a class in NOTEINFO ALL (R167). -/
def State.classCount (s : State) (c : NoteClass) : ClassCount :=
  let xs := s.classSlots c
  { pending := xs.countP (·.1.pending.isSome)
    unmasked := xs.countP fun x => !x.1.mask
    images := if c.isLevel then some (xs.countP (·.1.image)) else none }

/-- NOTEINFO (R167). An unknown class is answered in the layout of a named class: the class given, no edge setting, no
entry (the model's choice, log 37). -/
def noteinfoReply (cls : Nat) (s : State) : ReplyBody :=
  if cls = noteAllByte then
    .noteAll .done s.notices.edges (!s.notices.sendList.isEmpty) s.notices.sendList.length
      (NoteClass.all.map s.classCount)
  else match NoteClass.ofNumber cls with
    | none => .noteOne .malformed cls none []
    | some c =>
      .noteOne .done cls (if c.isLevel then some (s.notices.edges.of c) else none) (s.classSlots c)

end Sys2Proof.Machine
end

