-- ==== Sys2Proof/Machine/Restart.lean ====
section
/-! DEFINITION. The resets: power-on and RESTART COLD, RESTART WARM block by block, and the moment a restart takes effect
(R17, R42, R46, R59, R83, R101, R133, R143, R157, R168, R181, R182). -/

namespace Sys2Proof.Machine

/-- Power-on, and RESTART COLD: every block at its reset values (R17, R42, R59, R83, R101, R133, R157, R168, R182). The
commands that wait and the open orders belong to no block. -/
def resetCold (s : State) : State := { State.reset with orders := s.orders, pending := s.pending }

/-- The Time Base at RESTART WARM: an opening erase begins again (R7, R17). -/
def warmTime (t : TimeBase) : TimeBase := { t with erase := t.erase.map fun _ => 0 }

/-- A ride record at RESTART WARM (R42). -/
def RideUnit.warm (u : RideUnit) : RideUnit := { u with stall := 0, fault := 0, clear := 0 }

/-- A field record at RESTART WARM (R59). -/
def FieldRecord.warm (f : FieldRecord) : FieldRecord := { f with misses := 0, baseValid := false }

/-- The Field Poller at RESTART WARM: an outstanding poll is abandoned, and the cycle begins again at the lowest ride
(R46, R59). -/
def warmPoller (p : Poller) : Poller :=
  { p with
    records := p.records.each fun _ f => f.warm
    line := match p.line with
      | .idle => .idle
      | .outstanding _ _ _ | .reserved => .reserved
    last := 0 }

/-- The Flow Estimator at RESTART WARM (R83). -/
def warmEstimators (es : Table Estimator) : Table Estimator := es.each fun _ e => { e with eligible := false }

/-- A pane at RESTART WARM (R157). -/
def Pane.warm (p : Pane) : Pane := { p with page := 0, pageCount := 0 }

/-- KIND with its panes at RESTART WARM (R157). -/
def Kind.warm : Kind → Kind
  | .ride r => .ride r
  | .hub p q => .hub p.warm q.warm

/-- A board record at RESTART WARM (R157). -/
def Board.warm (b : Board) : Board :=
  { b with kind := b.kind.warm, lines := b.lines.map fun l => { l with blink := 0 }, presence := .unknown, misses := 0 }

/-- A line frame is outstanding. -/
def State.frameOutstanding (s : State) : Bool :=
  match s.boards.line with
  | .outstanding _ _ => true
  | .idle | .reserved => false

/-- The Board Composer at RESTART WARM: the pass in progress ends, an outstanding frame is abandoned, and a new pass
starts when the reserved window has closed, or at once when no frame was outstanding (R143, R157; log 21). -/
def warmBoards (s : State) : State :=
  let s' := { s with boards := { s.boards with
      table := s.boards.table.each fun _ b => b.warm
      timer := 0, due := false, pass := none, startOwed := s.frameOutstanding
      line := if s.frameOutstanding then .reserved else s.boards.line } }
  if s.frameOutstanding then s' else startPass s'

/-- A notice slot at RESTART WARM (R168). -/
def Slot.warm (v : Slot) : Slot := { v with pending := none, sent := false }

/-- The Notice Unit at RESTART WARM; a slot at its reset values is not listed (R168). -/
def warmNotices (n : NoticeUnit) : NoticeUnit :=
  { n with slots := (n.slots.each fun _ v => v.warm).filter fun x => x.2 ≠ Slot.reset, sendList := [] }

/-- RESTART WARM takes effect (R17, R42, R59, R83, R101, R133, R157, R168, R182). The book is kept. -/
def resetWarm (s : State) : State :=
  warmBoards
    { s with
      time := warmTime s.time
      units := s.units.each fun _ u => u.warm
      poller := warmPoller s.poller
      ests := warmEstimators s.ests
      notices := warmNotices s.notices
      port := Port.reset }

/-- The record is the reply of a RESTART that was taken (R181). -/
def Record.isRestart : Record → Bool
  | .reply _ _ (.restart .done _ _ _ _) => true
  | _ => false

/-- A restart is pending and its reply is the record last sent (R181, step 3). -/
def State.restartDue (s : State) : Option RestartKind :=
  match s.port.sending with
  | some rcd => if rcd.isRestart then s.port.restartPending else none
  | none => none

/-- The restart takes effect when the last byte of its reply has been sent (R181). -/
def takeRestart (s : State) : State :=
  match s.restartDue with
  | some .cold => resetCold s
  | some .warm => resetWarm s
  | none => s

end Sys2Proof.Machine
end

