-- ==== Sys2Proof/Machine/Port.lean ====
section
/-! DEFINITION. The Operations Port: the receiver, the input and output queues, STATUS and RESTART, the OPENING gate, and
the taking of a request (R8, R9, R169 to R182). -/

namespace Sys2Proof.Machine

/-! ### Receiving (R171, R172) -/

/-- A 16-bit counter of the port grows by 1, saturating (R171). -/
def countUp (n : Nat) : Nat := saturate Config.counterMax (n + 1)

/-- The receiver takes a state. -/
def State.setReceiver (v : Receiver) (s : State) : State := { s with port := { s.port with receiver := v } }

/-- A frame is discarded and CRC_ERRORS grows (R171, R172). -/
def discardFrame (s : State) : State :=
  { s with port := { s.port with receiver := .hunt, crcErrors := countUp s.port.crcErrors } }

/-- The number two LENGTH bytes spell, most significant first (R169). -/
def lengthOf (bs : List Byte) : Nat := bs.foldl (fun acc b => acc * 256 + b.toNat) 0

/-- The frame of a body: TAG, CLASS and parameters (R169). -/
def frameOf (body : List Byte) : Frame :=
  { tag := (body.headD 0#8).toNat, cls := ((body.drop 1).headD 0#8).toNat, params := body.drop 2 }

/-- A good frame joins the input queue, or is discarded as an overrun (R172). -/
def acceptFrame (f : Frame) (s : State) : State :=
  if s.port.input.length < Config.inputPlaces then
    { s with port := { s.port with input := s.port.input ++ [f] } }
  else
    let n := countUp s.port.overruns
    reportEvent .overrun 0 (saturate 255 n) { s with port := { s.port with overruns := n } }

/-- The frame is judged at the end of CHECK, and the receiver returns to HUNT (R171, R172). -/
def judgeFrame (length : Nat) (body check : List Byte) (s : State) : State :=
  if crcBytes (putNum 2 length ++ body) = check then acceptFrame (frameOf body) (s.setReceiver .hunt)
  else discardFrame s

/-- The receiver takes a byte (R171). -/
def receiveByte (s : State) (b : Byte) : State :=
  match s.port.receiver with
  | .hunt => if b = 0x5A#8 then s.setReceiver (.header []) else s
  | .header got =>
    let got := got ++ [b]
    if got.length < 2 then s.setReceiver (.header got)
    else if 2 ≤ lengthOf got ∧ lengthOf got ≤ Config.lengthMax then s.setReceiver (.body (lengthOf got) [])
    else discardFrame s
  | .body length got =>
    let got := got ++ [b]
    if got.length < length then s.setReceiver (.body length got) else s.setReceiver (.check length got [])
  | .check length body got =>
    let got := got ++ [b]
    if got.length < 2 then s.setReceiver (.check length body got) else judgeFrame length body got s

/-- The receiver takes bytes that follow each other without a gap (R171). -/
def receiveBytes (bs : List Byte) (s : State) : State := bs.foldl receiveByte s

/-- A gap of more than 20 ms inside a frame ends it (R171). -/
def receiveTimeout (s : State) : State :=
  match s.port.receiver with
  | .hunt => s
  | .header _ | .body _ _ | .check _ _ _ =>
    { s with port := { s.port with receiver := .hunt, timeouts := countUp s.port.timeouts } }

/-! ### Sending (R175, R176, R181) -/

/-- The record at the head of the output queue leaves it as its first byte is sent, and its place is granted to who
waits. Behind the reply of a pending restart nothing is sent (R175, R176, R181). -/
def sendRecord (s : State) : State :=
  if s.restartDue.isSome then s
  else match s.port.output with
    | [] => s
    | rcd :: rest => grantPlace { s with port := { s.port with output := rest, sending := some rcd } }

/-- The grant of a place to a reply, where one is to be made (R175, R176; log 9). -/
def grantToReply (s : State) : State :=
  if s.port.waiting ≠ [] ∧ (s.notices.sendList = [] ∨ s.port.noticesLast) then grantPlace s else s

/-- The grant of a place to a notice, where one is to be made (R163, R176; log 9). -/
def grantToNotice (s : State) : State :=
  if s.notices.sendList ≠ [] ∧ (s.port.waiting = [] ∨ ¬s.port.noticesLast) then grantPlace s else s

/-! ### STATUS (R180) -/

/-- What STATUS shows (R180), the items of all blocks read at one moment (the model's choice, DESIGN CHOICE, log 44). -/
def State.statusView (s : State) : StatusView :=
  { clock := s.time.clock, clockState := s.time.clockState, hold := s.time.hold, day := s.time.day,
    closePassed := s.time.closePassed, plan := s.time.plan, openPending := s.time.pendingOpen.isSome,
    rides := s.units.length, boards := s.boards.table.length, serial := s.book.serial,
    passes := s.book.passes.length, active := s.book.activeCount, accounts := s.book.accounts.length,
    retired := s.book.retired.length, bookLevel := s.book.bookLevel, sendWaiting := !s.notices.sendList.isEmpty,
    sendLength := s.notices.sendList.length, inputs := s.port.input.length, outputs := s.port.output.length,
    crcErrors := s.port.crcErrors, timeouts := s.port.timeouts, overruns := s.port.overruns }

/-! ### RESTART (R181) -/

/-- The kind of a code; none for another kind. -/
def RestartKind.ofNumber : Nat → Option RestartKind
  | 0 => some .warm
  | 1 => some .cold
  | _ => none

/-- RESTART: the reply is formed and the restart-pending flag set (R181). A MALFORMED reply carries the same fields
(log 18). -/
def serveRestart (kind : Nat) (s : State) : Answer :=
  match RestartKind.ofNumber kind with
  | none => (s, .restart .malformed kind s.time.clock s.time.clockState s.time.day)
  | some k =>
    ({ s with port := { s.port with restartPending := some k } },
      .restart .done kind s.time.clock s.time.clockState s.time.day)

/-! ### The OPENING gate (R8, R9, R174) -/

/-- What a request is answered at the gate during OPENING; none where it is passed to its owner (R8). -/
def gateCode : Request → Option Code
  | .status | .fieldinfo _ | .rideinfo _ | .windowinfo _ _ | .lookup _ | .listpasses _ _ _ _ | .accountinfo _
  | .boardinfo _ | .noteinfo _ => none
  | .setclock _ | .boardtext _ _ _ _ _ _ _ | .clearnote _ | .restart _ => none
  | .openday _ _ | .confpark _ => some .badState
  | .closeday | .confride _ _ _ _ | .setride _ _ _ _ | .setqueue _ _ _ _ | .setwindow _ _ _ _ _ _
  | .reserve _ _ _ _ _ _ | .redeem _ _ | .void _ | .confboard _ _ _ _ _ | .confpane _ _ _ _ _ _ _ _
  | .confnote _ => some .busy

/-- A reply of the gate: the layout of the class, echoed operands, and every presence-flagged field absent (R174). The
classes the gate passes on have no such reply. The two counts of a CONFNOTE are the model's choice (DESIGN CHOICE, log 45). -/
def gateReply (c : Code) (s : State) : Request → ReplyBody
  | .openday _ _ => .openday c none
  | .confpark _ => .confpark c s.time.params
  | .closeday => .closeday c
  | .confride _ _ _ _ => .confride c none
  | .setride r _ _ _ => .setride c r none
  | .setqueue r _ _ _ => .setqueue c r none
  | .setwindow r _ _ _ _ _ => .setwindow c r none
  | .reserve r _ _ _ _ _ => .reserve c r {}
  | .redeem n _ => .redeem c n {}
  | .void n => .void c n {}
  | .confboard _ _ _ _ _ => .confboard c none
  | .confpane a n _ _ _ _ _ _ => .confpane c a n none
  | .confnote _ => .confnote c 0 s.notices.sendList.length
  | .setclock _ | .fieldinfo _ | .rideinfo _ | .windowinfo _ _ | .lookup _ | .listpasses _ _ _ _ | .accountinfo _
  | .boardtext _ _ _ _ _ _ _ | .boardinfo _ | .clearnote _ | .noteinfo _ | .status | .restart _ => .bare

/-! ### Taking a request (R173, R174) -/

/-- An owner's answer that has a reply. -/
def answered (a : Answer) : State × Option ReplyBody := (a.1, some a.2)

/-- The owner of a request takes it whole; OPENDAY alone may leave no reply to form (R173). -/
def serve (tag : Nat) (rq : Request) (s : State) : State × Option ReplyBody :=
  match rq with
  | .setclock v => answered (serveSetclock v s)
  | .openday o c => serveOpenday tag o c s
  | .closeday => answered (serveCloseday s)
  | .confpark g => answered (serveConfpark g s)
  | .confride r remove f bad => answered (serveConfride r remove f bad s)
  | .setride r a g o => answered (serveSetride r a g o s)
  | .fieldinfo r => (s, some (fieldinfoReply r s))
  | .setqueue r g o q => answered (serveSetqueue r g o q s)
  | .rideinfo r => (s, some (rideinfoReply r s))
  | .setwindow r g o a b c => answered (serveSetwindow r g o a b c s)
  | .windowinfo r i => (s, some (windowinfoReply r i s))
  | .reserve r t p g o f =>
    answered (serveReserve { ride := r, token := t, party := p, guard := g, operand := o, flags := f } s)
  | .redeem n k => answered (serveRedeem n k s)
  | .void n => answered (serveVoid n s)
  | .lookup n => (s, some (lookupReply n s))
  | .listpasses r w c bad => (s, some (listpassesReply r w c bad s))
  | .accountinfo t => (s, some (accountinfoReply t s))
  | .confboard a remove k r bad => answered (serveConfboard a remove k r bad s)
  | .confpane a n l rows pp sk fit bad =>
    answered (serveConfpane a n { list := l, rows := rows, pagePasses := pp, skipClosed := sk, fit := fit } bad s)
  | .boardtext a n act t d bl bad =>
    answered (serveBoardtext a n { action := act, text := t, duration := d, blink := bl } bad s)
  | .boardinfo a => (s, some (boardinfoReply a s))
  | .confnote es => answered (serveConfnote es s)
  | .clearnote es => answered (serveClearnote es s)
  | .noteinfo c => (s, some (noteinfoReply c s))
  | .status => (s, some (.status .done s.statusView))
  | .restart k => answered (serveRestart k s)

/-- The gate, then the owner (R8, R174, check 3). -/
def gateServe (tag : Nat) (rq : Request) (s : State) : State × Option ReplyBody :=
  if s.time.day = .opening then
    match gateCode rq with
    | some c => (s, some (gateReply c s rq))
    | none => serve tag rq s
  else serve tag rq s

/-- The request is taken, and its reply enters the output queue or waits (R173, R175). -/
def takeRequest (tag : Nat) (rq : Request) (s : State) : State :=
  match gateServe tag rq s with
  | (s', some body) => enterReply (.reply tag (requestClass rq) body) s'
  | (s', none) => s'

/-- The port may take a frame: no reply waits and no restart is pending (R173). -/
def State.mayTake (s : State) : Bool := s.port.restartPending.isNone && s.port.waiting.isEmpty

/-- A frame leaves the input queue. -/
def State.popInput (s : State) : State := { s with port := { s.port with input := s.port.input.tail } }

/-- A row of the request catalogue: the port takes the request. It takes the frame at the head of the input queue when
that frame is the row's, a frame of the row's class and tag that no row spells (an unknown action, undefined flag bits,
a wrong body length) included; with no frame queued the row stands for the frame's reception as well (R173, R174;
log 5). Where the port cannot take it the row changes nothing. -/
def portStep (tag : Nat) (rq : Request) (s : State) : State :=
  if s.mayTake then
    match s.port.input with
    | [] => takeRequest tag rq s
    | f :: _ =>
      match f.parse with
      | .request rq' =>
        if f.tag = tag ∧ requestClass rq' = requestClass rq ∧ (rq' = rq ∨ requestIrregular rq') then
          takeRequest tag rq' s.popInput
        else s
      | .badLength =>
        if f.tag = tag ∧ f.cls = requestClass rq then enterReply (.reply tag (requestClass rq) .bare) s.popInput
        else s
      | .unknownClass => s
  else s

/-- UNKNOWN_CLASS: a frame with a CLASS outside the catalogue is taken and answered with CLASS 0x80, which the model
writes as request CLASS 0 (R174, check 1; log 5). -/
def unknownClassStep (tag cls : Nat) (s : State) : State :=
  if s.mayTake ∧ (cls = 0 ∨ 26 < cls) then
    match s.port.input with
    | [] => enterReply (.reply tag 0 .bare) s
    | f :: _ => if f.tag = tag ∧ f.cls = cls then enterReply (.reply tag 0 .bare) s.popInput else s
  else s

end Sys2Proof.Machine
end

