-- ==== Sys2Proof/Machine/Events.lean ====
section
/-! DEFINITION. The meanings of the commands that are no requests: power, time, thresholds, the three lines, grants, the
end of the opening and of a restart. A command whose condition does not hold leaves the state as it is (log 2). -/

namespace Sys2Proof.Machine

/-- What a meaning answers. -/
abbrev Result := Host.Outcome State Fault Refusal

/-- POWER_ON: supply or RESET_N (R17, R42, R59, R83, R101, R133, R157, R168, R182). -/
def execPowerOn (s : State) : Result := .next (resetCold s)

/-- SECOND_TICK: a second of the reference clock (R1, R2, R7, R140; log 7). -/
def execSecondTick (s : State) : Result := .next (referenceSecond s)

/-- HOLD_COUNTDOWN: a second of the reference clock during a hold (R4; log 7). -/
def execHoldCountdown (s : State) : Result := .next (if 0 < s.time.hold then referenceSecond s else s)

/-- HOLD_END: the second that brings the hold count to 0 (R4; log 7). -/
def execHoldEnd (s : State) : Result := .next (if s.time.hold = 1 then referenceSecond s else s)

/-- STALL_TIMER_EXPIRY (R31; log 1). -/
def execStallTimerExpiry (r : Nat) (s : State) : Result := .next (stallCheck r s)

/-- CODE_RISE (R34, R35; log 1). -/
def execCodeRise (r : Nat) (s : State) : Result := .next (codeRiseCheck r s)

/-- CODE_FALL (R36; log 1). -/
def execCodeFall (r : Nat) (s : State) : Result := .next (codeFallCheck r s)

/-- HELD_TOO_LONG (R32; log 1). -/
def execHeldTooLong (r : Nat) (s : State) : Result := .next (takeHeldMinute r s)

/-- TEST_COMPLETE: the check is not made at the entry into TESTING (R29; logs 1, 10). -/
def execTestComplete (r : Nat) (s : State) : Result :=
  .next (if (s.units.find r).any RideUnit.testCounted then testCheck r s else s)

/-- STALE_HOLD_REACHED (R77; log 1). -/
def execStaleHoldReached (r : Nat) (s : State) : Result := .next (staleCheck r s)

/-- OVERRIDE_EXPIRY (R155; log 1). -/
def execOverrideExpiry (a l : Nat) (s : State) : Result := .next (expireOverride a l s)

/-- POLL_SENT (R44, R45, R46; log 23). -/
def execPollSent (s : State) : Result := .next (sendPoll s)

/-- GOOD_REPLY: bytes received on the field line, judged by R45 (R48, R50 to R56). -/
def execGoodReply (bytes : List Byte) (s : State) : Result := .next (takeFieldBytes bytes s)

/-- POLL_MISS: the last bytes of the reply window, and its close (R45 to R47). -/
def execPollMiss (bytes : List Byte) (s : State) : Result := .next (closeFieldWindow bytes s)

/-- PASS_INTERVAL_EXPIRY (R140; log 8). -/
def execPassIntervalExpiry (s : State) : Result := .next (intervalExpiry s)

/-- PASS_START (R140, R141, R151). -/
def execPassStart (s : State) : Result := .next (passStartDue s)

/-- LINE_FRAME_SENT (R141, R142, R146 to R151, R153). -/
def execLineFrameSent (s : State) : Result := .next (sendNextLine s)

/-- BOARD_STATUS: a byte received on the board line (R142 to R145). -/
def execBoardStatus (status : Byte) (s : State) : Result := .next (takeBoardByte status s)

/-- BOARD_MISS (R142, R144, R145). -/
def execBoardMiss (s : State) : Result := .next (takeBoardMiss s)

/-- FRAME_RECEIVED: bytes received on the operations line without a gap (R171, R172). -/
def execFrameReceived (bytes : List Byte) (s : State) : Result := .next (receiveBytes bytes s)

/-- LENGTH_ERROR: the two LENGTH bytes (R171). -/
def execLengthError (high low : Byte) (s : State) : Result := .next (receiveBytes [high, low] s)

/-- RECEIVE_TIMEOUT (R171; log 6). -/
def execReceiveTimeout (s : State) : Result := .next (receiveTimeout s)

/-- UNKNOWN_CLASS (R174; log 5). -/
def execUnknownClass (tag cls : Nat) (s : State) : Result := .next (unknownClassStep tag cls s)

/-- REPLY_GRANTED (R175, R176; log 9). -/
def execReplyGranted (s : State) : Result := .next (grantToReply s)

/-- NOTICE_GRANTED (R163, R176; log 9). -/
def execNoticeGranted (s : State) : Result := .next (grantToNotice s)

/-- OUTPUT_RECORD_SEND (R175, R176, R181). -/
def execOutputRecordSend (s : State) : Result := .next (sendRecord s)

/-- OPENING_END (R10; log 6). -/
def execOpeningEnd (s : State) : Result := .next (endOpening s)

/-- RESTART_TAKES_EFFECT (R181). -/
def execRestartTakesEffect (s : State) : Result := .next (takeRestart s)

/-- FRAME_BEGINS: a byte of 0x5A is received (R171). -/
def execFrameBegins (s : State) : Result := .next (receiveByte s 0x5A#8)

/-- ABANDONED_FRAME_WINDOW_CLOSE (R143). -/
def execAbandonedFrameWindowClose (s : State) : Result := .next (reservedWindowClose s)

end Sys2Proof.Machine
end

