-- ==== Sys2Proof/Machine/Requests.lean ====
section
/-! DEFINITION. The meanings of the request commands: each names the request its row carries, and the port takes it
(R173, R174; log 5). -/

namespace Sys2Proof.Machine

/-- SETCLOCK (R3, R4). -/
def execSetclock (tag : Nat) (seconds : Nat) (s : State) : Result := .next (portStep tag (.setclock seconds) s)

/-- OPENDAY (R6, R7). -/
def execOpenday (tag : Nat) (openMin closeMin : Nat) (s : State) : Result :=
  .next (portStep tag (.openday openMin closeMin) s)

/-- CLOSEDAY (R11). -/
def execCloseday (tag : Nat) (s : State) : Result := .next (portStep tag .closeday s)

/-- CONFPARK (R13). -/
def execConfpark (tag : Nat) (given : Params) (s : State) : Result := .next (portStep tag (.confpark given) s)

/-- CONFRIDE without REMOVE (R20, R21). -/
def execConfride (tag : Nat) (r : Nat) (fields : RideFields) (s : State) : Result :=
  .next (portStep tag (.confride r false fields false) s)

/-- CONFRIDE with REMOVE (R20, R22). -/
def execConfrideRemove (tag : Nat) (r : Nat) (s : State) : Result := .next (portStep tag (.confride r true {} false) s)

/-- SETRIDE OPEN (R38, R39, R41). -/
def execSetrideOpen (tag : Nat) (r guard operand : Nat) (s : State) : Result :=
  .next (portStep tag (.setride r 0 guard operand) s)

/-- SETRIDE HOLD (R38, R39, R41). -/
def execSetrideHold (tag : Nat) (r guard operand : Nat) (s : State) : Result :=
  .next (portStep tag (.setride r 1 guard operand) s)

/-- SETRIDE RESUME (R38, R39, R41). -/
def execSetrideResume (tag : Nat) (r guard operand : Nat) (s : State) : Result :=
  .next (portStep tag (.setride r 2 guard operand) s)

/-- SETRIDE DOWN (R38, R40, R41). -/
def execSetrideDown (tag : Nat) (r guard operand : Nat) (s : State) : Result :=
  .next (portStep tag (.setride r 3 guard operand) s)

/-- SETRIDE CLEAR (R38, R40, R41). -/
def execSetrideClear (tag : Nat) (r guard operand : Nat) (s : State) : Result :=
  .next (portStep tag (.setride r 4 guard operand) s)

/-- SETRIDE LASTENTRY (R38, R40, R41). -/
def execSetrideLastentry (tag : Nat) (r guard operand : Nat) (s : State) : Result :=
  .next (portStep tag (.setride r 5 guard operand) s)

/-- SETRIDE CLOSE (R38, R40, R41). -/
def execSetrideClose (tag : Nat) (r guard operand : Nat) (s : State) : Result :=
  .next (portStep tag (.setride r 6 guard operand) s)

/-- FIELDINFO (R58). -/
def execFieldinfo (tag : Nat) (r : Nat) (s : State) : Result := .next (portStep tag (.fieldinfo r) s)

/-- SETQUEUE (R63, R64). -/
def execSetqueue (tag : Nat) (r guard operand queue : Nat) (s : State) : Result :=
  .next (portStep tag (.setqueue r guard operand queue) s)

/-- RIDEINFO (R82). -/
def execRideinfo (tag : Nat) (r : Nat) (s : State) : Result := .next (portStep tag (.rideinfo r) s)

/-- SETWINDOW (R89). -/
def execSetwindow (tag : Nat) (r guard operand first last capacity : Nat) (s : State) : Result :=
  .next (portStep tag (.setwindow r guard operand first last capacity) s)

/-- WINDOWINFO (R100). -/
def execWindowinfo (tag : Nat) (r first : Nat) (s : State) : Result := .next (portStep tag (.windowinfo r first) s)

/-- RESERVE with QUOTE clear (R111 to R115, R117). -/
def execReserve (tag : Nat) (r token party guard operand : Nat) (s : State) : Result :=
  .next (portStep tag (.reserve r token party guard operand 0) s)

/-- RESERVE with QUOTE set (R111 to R113, R116, R117). -/
def execReserveQuote (tag : Nat) (r token party guard operand : Nat) (s : State) : Result :=
  .next (portStep tag (.reserve r token party guard operand 1) s)

/-- REDEEM (R120 to R125). -/
def execRedeem (tag : Nat) (pass count : Nat) (s : State) : Result := .next (portStep tag (.redeem pass count) s)

/-- VOID (R126 to R128). -/
def execVoid (tag : Nat) (pass : Nat) (s : State) : Result := .next (portStep tag (.void pass) s)

/-- LOOKUP (R129). -/
def execLookup (tag : Nat) (pass : Nat) (s : State) : Result := .next (portStep tag (.lookup pass) s)

/-- LISTPASSES (R130). -/
def execListpasses (tag : Nat) (r : Nat) (window : Option Nat) (cursor : Nat) (s : State) : Result :=
  .next (portStep tag (.listpasses r window cursor false) s)

/-- ACCOUNTINFO (R131). -/
def execAccountinfo (tag : Nat) (token : Nat) (s : State) : Result := .next (portStep tag (.accountinfo token) s)

/-- CONFBOARD without REMOVE (R137, R138). -/
def execConfboard (tag : Nat) (a : Nat) (kind ride : Option Nat) (s : State) : Result :=
  .next (portStep tag (.confboard a false kind ride false) s)

/-- CONFBOARD with REMOVE (R137, R138). -/
def execConfboardRemove (tag : Nat) (a : Nat) (s : State) : Result :=
  .next (portStep tag (.confboard a true none none false) s)

/-- CONFPANE (R139). -/
def execConfpane (tag : Nat) (a pane : Nat) (list : List Nat) (rows pagePasses : Nat) (skipClosed : Bool) (fit : Nat) (s : State) : Result :=
  .next (portStep tag (.confpane a pane list rows pagePasses skipClosed fit false) s)

/-- BOARDTEXT SET (R154). -/
def execBoardtextSet (tag : Nat) (a line : Nat) (text : Text) (duration : Nat) (blink : Bool) (s : State) : Result :=
  .next (portStep tag (.boardtext a line 0 text duration blink false) s)

/-- BOARDTEXT RELEASE (R154). -/
def execBoardtextRelease (tag : Nat) (a line : Nat) (s : State) : Result :=
  .next (portStep tag (.boardtext a line 1 [] 0 false false) s)

/-- BOARDINFO (R156). -/
def execBoardinfo (tag : Nat) (a : Nat) (s : State) : Result := .next (portStep tag (.boardinfo a) s)

/-- CONFNOTE (R165). -/
def execConfnote (tag : Nat) (entries : List NoteEntry) (s : State) : Result :=
  .next (portStep tag (.confnote entries) s)

/-- CLEARNOTE (R166). -/
def execClearnote (tag : Nat) (entries : List ClearEntry) (s : State) : Result :=
  .next (portStep tag (.clearnote entries) s)

/-- NOTEINFO (R167). -/
def execNoteinfo (tag : Nat) (cls : Nat) (s : State) : Result := .next (portStep tag (.noteinfo cls) s)

/-- STATUS (R180). -/
def execStatus (tag : Nat) (s : State) : Result := .next (portStep tag .status s)

/-- RESTART WARM (R181). -/
def execRestartWarm (tag : Nat) (s : State) : Result := .next (portStep tag (.restart 0) s)

/-- RESTART COLD (R181). -/
def execRestartCold (tag : Nat) (s : State) : Result := .next (portStep tag (.restart 1) s)

end Sys2Proof.Machine
end

