-- ==== Sys2Proof/Machine/Dispatch.lean ====
section
/-! DEFINITION. One arm per command, each a direct call of its meaning. -/

namespace Sys2Proof.Machine

/-- The effect of a command on everything but the queue of waiting commands. -/
def exec (i : Instr) (s : State) : Host.Outcome State Fault Refusal :=
  match i with
  | .powerOn => Sys2Proof.Machine.execPowerOn s
  | .secondTick => Sys2Proof.Machine.execSecondTick s
  | .holdCountdown => Sys2Proof.Machine.execHoldCountdown s
  | .holdEnd => Sys2Proof.Machine.execHoldEnd s
  | .stallTimerExpiry ride => Sys2Proof.Machine.execStallTimerExpiry ride s
  | .codeRise ride => Sys2Proof.Machine.execCodeRise ride s
  | .codeFall ride => Sys2Proof.Machine.execCodeFall ride s
  | .heldTooLong ride => Sys2Proof.Machine.execHeldTooLong ride s
  | .testComplete ride => Sys2Proof.Machine.execTestComplete ride s
  | .staleHoldReached ride => Sys2Proof.Machine.execStaleHoldReached ride s
  | .overrideExpiry board line => Sys2Proof.Machine.execOverrideExpiry board line s
  | .pollSent => Sys2Proof.Machine.execPollSent s
  | .goodReply bytes => Sys2Proof.Machine.execGoodReply bytes s
  | .pollMiss bytes => Sys2Proof.Machine.execPollMiss bytes s
  | .passIntervalExpiry => Sys2Proof.Machine.execPassIntervalExpiry s
  | .passStart => Sys2Proof.Machine.execPassStart s
  | .lineFrameSent => Sys2Proof.Machine.execLineFrameSent s
  | .boardStatus status => Sys2Proof.Machine.execBoardStatus status s
  | .boardMiss => Sys2Proof.Machine.execBoardMiss s
  | .frameReceived bytes => Sys2Proof.Machine.execFrameReceived bytes s
  | .lengthError high low => Sys2Proof.Machine.execLengthError high low s
  | .receiveTimeout => Sys2Proof.Machine.execReceiveTimeout s
  | .unknownClass tag cls => Sys2Proof.Machine.execUnknownClass tag cls s
  | .replyGranted => Sys2Proof.Machine.execReplyGranted s
  | .noticeGranted => Sys2Proof.Machine.execNoticeGranted s
  | .outputRecordSend => Sys2Proof.Machine.execOutputRecordSend s
  | .openingEnd => Sys2Proof.Machine.execOpeningEnd s
  | .restartTakesEffect => Sys2Proof.Machine.execRestartTakesEffect s
  | .setclock tag seconds => Sys2Proof.Machine.execSetclock tag seconds s
  | .openday tag openMin closeMin => Sys2Proof.Machine.execOpenday tag openMin closeMin s
  | .closeday tag => Sys2Proof.Machine.execCloseday tag s
  | .confpark tag given => Sys2Proof.Machine.execConfpark tag given s
  | .confride tag ride fields => Sys2Proof.Machine.execConfride tag ride fields s
  | .confrideRemove tag ride => Sys2Proof.Machine.execConfrideRemove tag ride s
  | .setrideOpen tag ride guard operand => Sys2Proof.Machine.execSetrideOpen tag ride guard operand s
  | .setrideHold tag ride guard operand => Sys2Proof.Machine.execSetrideHold tag ride guard operand s
  | .setrideResume tag ride guard operand => Sys2Proof.Machine.execSetrideResume tag ride guard operand s
  | .setrideDown tag ride guard operand => Sys2Proof.Machine.execSetrideDown tag ride guard operand s
  | .setrideClear tag ride guard operand => Sys2Proof.Machine.execSetrideClear tag ride guard operand s
  | .setrideLastentry tag ride guard operand => Sys2Proof.Machine.execSetrideLastentry tag ride guard operand s
  | .setrideClose tag ride guard operand => Sys2Proof.Machine.execSetrideClose tag ride guard operand s
  | .fieldinfo tag ride => Sys2Proof.Machine.execFieldinfo tag ride s
  | .setqueue tag ride guard operand queue => Sys2Proof.Machine.execSetqueue tag ride guard operand queue s
  | .rideinfo tag ride => Sys2Proof.Machine.execRideinfo tag ride s
  | .setwindow tag ride guard operand first last capacity => Sys2Proof.Machine.execSetwindow tag ride guard operand first last capacity s
  | .windowinfo tag ride first => Sys2Proof.Machine.execWindowinfo tag ride first s
  | .reserve tag ride token party guard operand => Sys2Proof.Machine.execReserve tag ride token party guard operand s
  | .reserveQuote tag ride token party guard operand => Sys2Proof.Machine.execReserveQuote tag ride token party guard operand s
  | .redeem tag pass count => Sys2Proof.Machine.execRedeem tag pass count s
  | .void tag pass => Sys2Proof.Machine.execVoid tag pass s
  | .lookup tag pass => Sys2Proof.Machine.execLookup tag pass s
  | .listpasses tag ride window cursor => Sys2Proof.Machine.execListpasses tag ride window cursor s
  | .accountinfo tag token => Sys2Proof.Machine.execAccountinfo tag token s
  | .confboard tag address kind ride => Sys2Proof.Machine.execConfboard tag address kind ride s
  | .confboardRemove tag address => Sys2Proof.Machine.execConfboardRemove tag address s
  | .confpane tag address pane list rows pagePasses skipClosed fit => Sys2Proof.Machine.execConfpane tag address pane list rows pagePasses skipClosed fit s
  | .boardtextSet tag address line text duration blink => Sys2Proof.Machine.execBoardtextSet tag address line text duration blink s
  | .boardtextRelease tag address line => Sys2Proof.Machine.execBoardtextRelease tag address line s
  | .boardinfo tag address => Sys2Proof.Machine.execBoardinfo tag address s
  | .confnote tag entries => Sys2Proof.Machine.execConfnote tag entries s
  | .clearnote tag entries => Sys2Proof.Machine.execClearnote tag entries s
  | .noteinfo tag cls => Sys2Proof.Machine.execNoteinfo tag cls s
  | .status tag => Sys2Proof.Machine.execStatus tag s
  | .restartWarm tag => Sys2Proof.Machine.execRestartWarm tag s
  | .restartCold tag => Sys2Proof.Machine.execRestartCold tag s
  | .frameBegins => Sys2Proof.Machine.execFrameBegins s
  | .abandonedFrameWindowClose => Sys2Proof.Machine.execAbandonedFrameWindowClose s

end Sys2Proof.Machine
end

