-- ==== Sys2Proof/WellFormed.lean ====
section
/-! DEFINITION. Which commands are well formed: every operand fits the bytes that carry it (R183), and every ride,
board and line of an internal event is one the part has. -/

namespace Sys2Proof

/-- The number fits `n` bytes. -/
def fits (n v : Nat) : Bool := v < 256 ^ n

/-- An optional number fits `n` bytes when present. -/
def fitsOpt (n : Nat) : Option Nat → Bool
  | none => true
  | some v => fits n v

/-- A text fits its length byte. -/
def fitsText (t : Text) : Bool := t.length < 256

/-- A ride number the part has. -/
def isRide (r : Nat) : Bool := 1 ≤ r && r ≤ Config.rides

/-- A board address the part has. -/
def isBoard (a : Nat) : Bool := 1 ≤ a && a ≤ Config.boards

/-- Every value of a CONFPARK fits its field (R183). -/
def Params.fitsFrame (p : Params) : Bool :=
  [p.k, p.l, p.step, p.postMax, p.hyst, p.jump, p.staleHold, p.silencePolls, p.lead, p.gEarly, p.gLate, p.a, p.d,
    p.slotLow, p.passInterval, p.blinkPasses, p.blinkDuty].all (fits 2) &&
  [p.text1, p.text2, p.text3].all fitsText

/-- Every field of a CONFRIDE fits its field (R183). SHORT_NAME present with 0 characters spells NONE, and OPENS_AT
0xFFFF spells NONE, so neither is a value. -/
def RideFields.fitsFrame (f : RideFields) : Bool :=
  (match f.fullName with | some t => fitsText t | none => true) &&
  (match f.shortName with | some (some t) => fitsText t && !t.isEmpty | _ => true) &&
  (match f.opensAt with | some (some m) => m < 65535 | _ => true) &&
  fitsOpt 1 f.fieldAddress &&
  [f.c, f.p, f.walk, f.codePersist, f.clearPersist, f.stallTime, f.downAfter, f.testDispatches, f.testMinutes].all
    (fitsOpt 2)

/-- The well-formedness check of a command. -/
def Instr.wf : Instr → Bool
  | .powerOn | .secondTick | .holdCountdown | .holdEnd | .pollSent | .passIntervalExpiry | .passStart
  | .lineFrameSent | .boardMiss | .receiveTimeout | .replyGranted | .noticeGranted | .outputRecordSend | .openingEnd
  | .restartTakesEffect | .frameBegins | .abandonedFrameWindowClose => true
  | .stallTimerExpiry r | .codeRise r | .codeFall r | .heldTooLong r | .testComplete r | .staleHoldReached r => isRide r
  | .overrideExpiry a l => isBoard a && 1 ≤ l && l ≤ 16
  | .goodReply _ | .pollMiss _ | .boardStatus _ | .frameReceived _ | .lengthError _ _ => true
  | .unknownClass tag cls => fits 1 tag && fits 1 cls && (cls == 0 || 26 < cls)
  | .setclock tag secs => fits 1 tag && fits 3 secs
  | .openday tag o c => fits 1 tag && fits 2 o && fits 2 c
  | .closeday tag | .status tag | .restartWarm tag | .restartCold tag => fits 1 tag
  | .confpark tag g => fits 1 tag && g.fitsFrame
  | .confride tag r f => fits 1 tag && fits 1 r && f.fitsFrame
  | .confrideRemove tag r | .fieldinfo tag r | .rideinfo tag r => fits 1 tag && fits 1 r
  | .setrideOpen tag r g o | .setrideHold tag r g o | .setrideResume tag r g o | .setrideDown tag r g o
  | .setrideClear tag r g o | .setrideLastentry tag r g o | .setrideClose tag r g o =>
      fits 1 tag && fits 1 r && fits 1 g && fits 1 o
  | .setqueue tag r g o q => fits 1 tag && fits 1 r && fits 1 g && fits 1 o && fits 2 q
  | .setwindow tag r g o a b c =>
      fits 1 tag && fits 1 r && fits 1 g && fits 1 o && fits 1 a && fits 1 b && fits 2 c
  | .windowinfo tag r i => fits 1 tag && fits 1 r && fits 1 i
  | .reserve tag r t p g o | .reserveQuote tag r t p g o =>
      fits 1 tag && fits 1 r && fits 4 t && fits 1 p && fits 1 g && fits 1 o
  | .redeem tag p k => fits 1 tag && fits 3 p && fits 1 k
  | .void tag p | .lookup tag p => fits 1 tag && fits 3 p
  | .listpasses tag r w c => fits 1 tag && fits 1 r && fitsOpt 1 w && fits 3 c
  | .accountinfo tag t => fits 1 tag && fits 4 t
  | .confboard tag a k r => fits 1 tag && fits 1 a && fitsOpt 1 k && fitsOpt 1 r
  | .confboardRemove tag a | .boardinfo tag a => fits 1 tag && fits 1 a
  | .confpane tag a p l rows pp _ f =>
      fits 1 tag && fits 1 a && fits 1 p && l.length < 256 && l.all (fits 1) && fits 2 rows && fits 2 pp && fits 1 f
  | .boardtextSet tag a l t d _ => fits 1 tag && fits 1 a && fits 1 l && fitsText t && fits 2 d
  | .boardtextRelease tag a l => fits 1 tag && fits 1 a && fits 1 l
  | .confnote tag es =>
      fits 1 tag && es.length < 256 && es.all fun e => fits 1 e.cls && fits 1 e.src && fits 1 e.mask && fits 1 e.edge
  | .clearnote tag es => fits 1 tag && es.length < 256 && es.all fun e => fits 1 e.cls && fits 1 e.src
  | .noteinfo tag c => fits 1 tag && fits 1 c

end Sys2Proof
end

