-- ==== Sys2Proof/Safety.lean ====
section
/-! DEFINITION. What it means that a request is offered to the port and answered, and the invariants of the part. -/

namespace Sys2Proof.Safety

open Sys2Proof.Machine

/-- The port may take the request now: no reply waits, no restart is pending, and the request is the frame at the head of
the input queue, or the queue is empty and the row stands for the reception as well (R173; log 5). -/
def Offered (tag : Nat) (rq : Request) (s : State) : Prop :=
  s.mayTake = true ∧
    (s.port.input = [] ∨ ∃ f fs, s.port.input = f :: fs ∧ f.tag = tag ∧ f.parse = .request rq)

/-- The record is the newest of the records that have entered the output queue or wait for it (R175). -/
def Replied (rcd : Record) (t : State) : Prop := (t.port.output ++ t.port.waiting).getLast? = some rcd

/-- What the sending of records and notices leaves of the port: all but its queues of records and the grant marker. -/
structure PortKept (s t : State) : Prop where
  receiver : t.port.receiver = s.port.receiver
  input : t.port.input = s.port.input
  restartPending : t.port.restartPending = s.port.restartPending
  crcErrors : t.port.crcErrors = s.port.crcErrors
  timeouts : t.port.timeouts = s.port.timeouts
  overruns : t.port.overruns = s.port.overruns
  sending : t.port.sending = s.port.sending

/-- What the Return Book keeps beside its windows, its ride counts and its late reports is as it was. -/
structure PassesKept (s t : State) : Prop where
  passes : t.book.passes = s.book.passes
  retired : t.book.retired = s.book.retired
  serial : t.book.serial = s.book.serial
  accounts : t.book.accounts = s.book.accounts
  activeCount : t.book.activeCount = s.book.activeCount
  bookLevel : t.book.bookLevel = s.book.bookLevel

/-- No record of a table is changed but the one at a key. -/
def OthersKept {α : Type} (k : Nat) (a b : Table α) : Prop := ∀ j, j ≠ k → b.find j = a.find j

/-- The command of each SETRIDE row. -/
def setrideCommand (a : RideAction) (tag r guard operand : Nat) : Instr :=
  match a with
  | .openRide => .setrideOpen tag r guard operand
  | .hold => .setrideHold tag r guard operand
  | .resume => .setrideResume tag r guard operand
  | .down => .setrideDown tag r guard operand
  | .clear => .setrideClear tag r guard operand
  | .lastentry => .setrideLastentry tag r guard operand
  | .close => .setrideClose tag r guard operand

/-- The action code of each SETRIDE row (R38, R183). -/
def actionCode : RideAction → Nat
  | .openRide => 0 | .hold => 1 | .resume => 2 | .down => 3 | .clear => 4 | .lastentry => 5 | .close => 6

/-- The ride record after a SETRIDE action, at CLOCK `now`; `closes` tells whether the close check holds on the entry into
CLOSING (R26, R28, R30, R39, R40). -/
def afterAction (a : RideAction) (now : Option Nat) (closes : Bool) (u : RideUnit) : RideUnit :=
  match a with
  | .openRide => { u with state := .testing .fromClosed, since := now, testDispatches := 0, testMinutes := 0 }
  | .hold => { u with state := .held .operations, since := now }
  | .resume => { u with state := .opened, since := now, stall := 0 }
  | .down => if u.state = .down .operations then u else { u with state := .down .operations, since := now }
  | .clear => { u with state := .testing .fromDown, since := now, testDispatches := 0, testMinutes := 0 }
  | .lastentry => { u with state := if closes then .closed else .closing, since := now }
  | .close => { u with state := .closed, since := now, stall := 0, testDispatches := 0, testMinutes := 0 }

/-- The ride record that leaves a completed test, at CLOCK `now`: OPEN, or after park close CLOSING, and through it CLOSED
where the close check holds (`closes`) (R26, R29, R30). -/
def afterTest (closePassed closes : Bool) (now : Option Nat) (u : RideUnit) : RideUnit :=
  if closePassed then { u with state := if closes then .closed else .closing, since := now }
  else { u with state := .opened, since := now, stall := 0 }

/-- The ride record after a second tick with LINK UP has been counted by the latest code (R34 to R36). A fault code counts
the fault timer while it is below CODE_PERSIST; there the CODE level rises, and AUTO takes a ride that is not CLOSED or DOWN
to DOWN (CODE). A normal code counts the clear timer while the level is set; at CLEAR_PERSIST the level falls, and AUTO takes
a DOWN ride to TESTING (FROM_DOWN). -/
def secondOfCode (now code : Option Nat) (u : RideUnit) : RideUnit :=
  match code with
  | none => u
  | some c =>
    if 128 ≤ c then
      let v := { u with fault := if u.fault < u.config.codePersist then u.fault + 1 else u.fault }
      if u.codeLevel = false ∧ u.config.codePersist ≤ v.fault then
        if u.config.auto = true ∧ u.state ≠ .closed ∧ u.state.isDown = false then
          { v with codeLevel := true, state := .down .code, since := now }
        else { v with codeLevel := true }
      else v
    else if u.codeLevel then
      if u.config.clearPersist ≤ u.clear + 1 then
        if u.config.auto = true ∧ u.state.isDown = true then
          { u with
            codeLevel := false, clear := 0, state := .testing .fromDown, since := now, testDispatches := 0
            testMinutes := 0 }
        else { u with codeLevel := false, clear := 0 }
      else { u with clear := u.clear + 1 }
    else u

/-- The ride record after a second tick with LINK UP has been counted by the stall timer of an OPEN ride, which goes HELD
(STALL) at STALL_TIME (R30, R31). -/
def secondOfStall (now : Option Nat) (u : RideUnit) : RideUnit :=
  if u.state = .opened then
    let v := { u with stall := min 900 (u.stall + 1) }
    if u.config.stallTime ≤ v.stall then { v with state := .held .stall, since := now } else v
  else u

/-- The index of the window a day event is of. -/
def eventWindow : DayEvent → Option Nat
  | .windowStart i | .graceEnd i => some i
  | .parkClose | .gridEnd => none

/-- The day schedule of a plan (R14): each list event once, a grace end at the minute after GRACE_END, in minute order and
within a minute in increasing window index. -/
structure IsSchedule (plan : Plan) (gLate : Nat) (schedule : List Scheduled) : Prop where
  events : schedule.Perm
    ((List.range plan.n).map (fun i => { minute := plan.openMin + plan.len * i, event := .windowStart i }) ++
      (List.range plan.n).map (fun i =>
        { minute := plan.openMin + plan.len * (i + 1) + gLate + 1, event := .graceEnd i }) ++
      [{ minute := plan.closeMin, event := .parkClose },
        { minute := plan.openMin + plan.len * plan.n, event := .gridEnd }])
  order : schedule.Pairwise fun x y => x.minute < y.minute ∨ (x.minute = y.minute ∧
    ∀ i j, eventWindow x.event = some i → eventWindow y.event = some j → i < j)

/-- `x` is the listed value nearest to `v`, the smaller of two equally near (R13). -/
def NearestListed (v x : Nat) (listed : List Nat) : Prop :=
  x ∈ listed ∧ ∀ y ∈ listed, distance v x < distance v y ∨ (distance v x = distance v y ∧ x ≤ y)

/-- The lead window of a ride at minute `m`: none once the end of the grid has been taken (R86), and before that the lowest
window that contains it, else the lowest that starts after it (R97). -/
def LeadWindow (b : RideBook) (m i : Nat) : Prop :=
  b.gridEnded = false ∧ ∃ w, b.windows[i]? = some w ∧
    ((w.startMin ≤ m ∧ m < w.endMin ∧ ∀ j x, j < i → b.windows[j]? = some x → ¬(x.startMin ≤ m ∧ m < x.endMin)) ∨
      (m < w.startMin ∧ (∀ x ∈ b.windows, ¬(x.startMin ≤ m ∧ m < x.endMin)) ∧
        ∀ j x, j < i → b.windows[j]? = some x → x.startMin ≤ m))

/-- The window is unresolved, ends after minute `t` and has room for `party` guests (R113). -/
def HasRoom (t party : Nat) (w : Window) : Prop :=
  w.resolved = false ∧ t < w.endMin ∧ party ≤ w.cap - w.issued - w.hold

/-- `w`, at index `i`, is the lowest-indexed window that has room for `party` guests after minute `t` (R113). -/
def LowestWindow (ws : List Window) (t party i : Nat) (w : Window) : Prop :=
  ws[i]? = some w ∧ HasRoom t party w ∧ ∀ j x, j < i → ws[j]? = some x → ¬HasRoom t party x

/-- The structure of a RESERVE that is not MALFORMED (R111, check 2; R178 for the flags). -/
structure ReserveShaped (o : ReserveOps) : Prop where
  token : o.token ≠ 0
  party : 1 ≤ o.party ∧ o.party ≤ 8
  guard : o.guard ≤ 10
  flags : o.flags ≤ 1

/-- The active pass `n` is one on ride `r` (R112). -/
def OnRide (s : State) (r n : Nat) : Prop := ∃ p, s.book.passes.find n = some p ∧ p.ride = r

/-- The first account check of a RESERVE by token `k` on ride `r` that fails: its outcome, and for DUPLICATE the conflicting
pass (R112, check 7). -/
inductive AccountRefuses (s : State) (k r : Nat) : Code → Option Nat → Prop where
  | full : s.book.accounts.find k = none → 24576 ≤ s.book.accounts.length → AccountRefuses s k r .accountFull none
  | atLimit (a : Account) : s.book.accounts.find k = some a → s.time.params.a ≤ a.active.length →
      AccountRefuses s k r .activeLimit none
  | duplicate (a : Account) (earlier later : List Nat) (n : Nat) : s.book.accounts.find k = some a →
      a.active.length < s.time.params.a → a.active = earlier ++ n :: later → OnRide s r n →
      (∀ m ∈ earlier, ¬OnRide s r m) → AccountRefuses s k r .duplicate (some n)
  | daily (a : Account) : s.book.accounts.find k = some a → a.active.length < s.time.params.a →
      (∀ m ∈ a.active, ¬OnRide s r m) → 0 < s.time.params.d → s.time.params.d ≤ a.issuedToday →
      AccountRefuses s k r .dailyLimit none

/-- The slot is `x` and the send list is `list`; every other slot, and everything else, is as it was. -/
structure SlotMoved (id : SlotId) (x : Slot) (list : List SlotId) (s t : State) : Prop where
  slot : t.slot id = x
  others : ∀ j, j ≠ id → t.slot j = s.slot j
  rest : t = { s with notices := { s.notices with slots := t.notices.slots, sendList := list } }

/-- The record latched of a report: CLOCK as it was taken, 0 while UNSET, the level after it and its detail byte (R159). -/
def recordOf (level : Bool) (detail : Nat) (s : State) : Latched :=
  { clock := match s.time.clockState with | .unset => 0 | .running => s.time.clock, level, detail }

/-- The slot takes the value `x`, of which record `l` is latched and unsent, and its record becomes due (R163): it joins the end
of the send list, on which it stands at most once; with no place of the output queue free it waits there, and with a place that
nobody waits for it is sent at once. `place` says the same of any state, by the grant of a place. -/
structure BecomesDue (id : SlotId) (x : Slot) (l : Latched) (s t : State) : Prop where
  waits : 32 ≤ s.port.output.length →
    SlotMoved id x (if id ∈ s.notices.sendList then s.notices.sendList else s.notices.sendList ++ [id]) s t
  sends : s.port.output.length < 32 → s.port.waiting = [] → s.notices.sendList = [] →
    t.slot id = { x with sent := true } ∧ (∀ j, j ≠ id → t.slot j = s.slot j) ∧
    t = { s with notices := { s.notices with slots := t.notices.slots }
                 port := { s.port with output := s.port.output ++ [.notice id l] } }
  place : id ∉ s.notices.sendList → ∃ s1, SlotMoved id x (s.notices.sendList ++ [id]) s s1 ∧ t = grantPlace s1

/-- What a report that calls for the pending flag of a slot leaves (R161). With PENDING set it changes nothing. With PENDING
clear the report's record is latched: with MASK set it waits in the slot, and with MASK clear it becomes due. -/
structure Latches (id : SlotId) (level : Bool) (detail : Nat) (s t : State) : Prop where
  pending : (s.slot id).pending.isSome = true → t = s
  masked : (s.slot id).pending = none → (s.slot id).mask = true →
    SlotMoved id { s.slot id with pending := some (recordOf level detail s), sent := false } s.notices.sendList s t
  due : (s.slot id).pending = none → (s.slot id).mask = false →
    BecomesDue id { s.slot id with pending := some (recordOf level detail s), sent := false } (recordOf level detail s) s t

/-- What a mask action on one slot leaves (R165; 0 SET, 1 CLEAR, 2 KEEP). SET sets MASK and takes the slot off the send list.
CLEAR clears MASK; where it was set over a record that is pending and not sent, the record becomes due. KEEP changes
nothing. -/
structure Masks (action : Nat) (id : SlotId) (s t : State) : Prop where
  set : action = 0 → SlotMoved id { s.slot id with mask := true } (s.notices.sendList.filter (· ≠ id)) s t
  uncovers : ∀ l, action = 1 → (s.slot id).mask = true → (s.slot id).pending = some l → (s.slot id).sent = false →
    BecomesDue id { s.slot id with mask := false } l s t
  clear : action = 1 → (s.slot id).mask = false ∨ (s.slot id).pending = none ∨ (s.slot id).sent = true →
    SlotMoved id { s.slot id with mask := false } s.notices.sendList s t
  keep : action = 2 → t = s

/-- A class and source number of an entry name slots (R165, step 2): ALL with ALL, or a class with ALL or a source of its
range. -/
def NamesSlots (cls src : Nat) : Prop :=
  (cls = 255 ∧ src = 255) ∨ ∃ c : NoteClass, c.number = cls ∧ (src = 255 ∨ src ∈ c.sources)

/-- An entry of CONFNOTE or CLEARNOTE covers the slot: its class or ALL, and its source number or ALL (R165, R166). -/
def Covers (cls src : Nat) (id : SlotId) : Prop :=
  (cls = 255 ∨ cls = id.cls.number) ∧ ((src = 255 ∧ id.src ∈ id.cls.sources) ∨ (src ≠ 255 ∧ src = id.src))

/-- Board `x` has the KIND `k`. -/
def HasKind (t : State) (x : Nat) (k : Kind) : Prop := ∃ b, t.boards.table.find x = some b ∧ b.kind = k

/-- What the next choice of R141, made once a line frame has ended in state `s`, leaves of the pass. With no pass, or with a
line left in it, nothing moves. After the last line of the last board the pass ends; where the due flag is set the next pass
then starts, its timer from 0, the due flag clear and the panes of every board advanced (R140, R151). -/
structure NextChoice (s t : State) : Prop where
  keys : t.boards.table.keys = s.boards.table.keys
  sent : t.boards.sent = s.boards.sent
  stands : (s.boards.pass = none ∨ ∃ a l x, s.boards.pass = some (a, l) ∧ nextLine s.boards.table a l = some x) →
    t.boards.pass = s.boards.pass ∧ t.boards.due = s.boards.due ∧ t.boards.timer = s.boards.timer ∧
    t.boards.startOwed = s.boards.startOwed ∧ ∀ x b, s.boards.table.find x = some b → HasKind t x b.kind
  ends : ∀ a l, s.boards.pass = some (a, l) → nextLine s.boards.table a l = none → s.boards.due = false →
    t.boards.pass = none ∧ t.boards.due = false ∧ t.boards.timer = s.boards.timer ∧
    t.boards.startOwed = s.boards.startOwed ∧ ∀ x b, s.boards.table.find x = some b → HasKind t x b.kind
  starts : ∀ a l, s.boards.pass = some (a, l) → nextLine s.boards.table a l = none → s.boards.due = true →
    t.boards.pass = (if s.boards.table.isEmpty then none else some (0, 0)) ∧ t.boards.due = false ∧
    t.boards.timer = 0 ∧ t.boards.startOwed = false ∧
    ∀ x b, s.boards.table.find x = some b → HasKind t x (b.kind.advance s.units)

/-- A taking by its plain name: the estimator's two ways with a held-minute report are one taking (log 4). -/
def plain : Taking → Taking
  | .estimatorLate r => .estimator r
  | k => k

/-- A window as an entry into an out-of-service STATE in minute `e` leaves it (R91). -/
def marked (e : Nat) (w : Window) : Window :=
  if w.resolved = false ∧ w.startMin ≤ e ∧ e ≤ w.graceEnd then { w with interrupted := true } else w

/-- The requests that are answered at the gate during OPENING, each with its reply, whose presence-flagged fields are absent:
BUSY, and for OPENDAY and CONFPARK BAD_STATE (R8, R174). -/
inductive GateRow (s : State) : Request → ReplyBody → Prop where
  | openday (o c : Nat) : GateRow s (.openday o c) (.openday .badState none)
  | confpark (g : Params) : GateRow s (.confpark g) (.confpark .badState s.time.params)
  | closeday : GateRow s .closeday (.closeday .busy)
  | confride (r : Nat) (remove : Bool) (f : RideFields) (bad : Bool) :
      GateRow s (.confride r remove f bad) (.confride .busy none)
  | setride (r a g o : Nat) : GateRow s (.setride r a g o) (.setride .busy r none)
  | setqueue (r g o q : Nat) : GateRow s (.setqueue r g o q) (.setqueue .busy r none)
  | setwindow (r g o i j v : Nat) : GateRow s (.setwindow r g o i j v) (.setwindow .busy r none)
  | reserve (r k p g o f : Nat) : GateRow s (.reserve r k p g o f) (.reserve .busy r {})
  | redeem (n k : Nat) : GateRow s (.redeem n k) (.redeem .busy n {})
  | void (n : Nat) : GateRow s (.void n) (.void .busy n {})
  | confboard (a : Nat) (remove : Bool) (kind ride : Option Nat) (bad : Bool) :
      GateRow s (.confboard a remove kind ride bad) (.confboard .busy none)
  | confpane (a n : Nat) (list : List Nat) (rows pp : Nat) (skip : Bool) (fit : Nat) (bad : Bool) :
      GateRow s (.confpane a n list rows pp skip fit bad) (.confpane .busy a n none)
  | confnote (es : List NoteEntry) : GateRow s (.confnote es) (.confnote .busy 0 s.notices.sendList.length)

/-- The requests that the gate passes to their owners during OPENING (R8). -/
inductive GatePasses : Request → Prop where
  | status : GatePasses .status
  | fieldinfo (r : Nat) : GatePasses (.fieldinfo r)
  | rideinfo (r : Nat) : GatePasses (.rideinfo r)
  | windowinfo (r i : Nat) : GatePasses (.windowinfo r i)
  | lookup (n : Nat) : GatePasses (.lookup n)
  | listpasses (r : Nat) (w : Option Nat) (c : Nat) (bad : Bool) : GatePasses (.listpasses r w c bad)
  | accountinfo (k : Nat) : GatePasses (.accountinfo k)
  | boardinfo (a : Nat) : GatePasses (.boardinfo a)
  | noteinfo (c : Nat) : GatePasses (.noteinfo c)
  | setclock (v : Nat) : GatePasses (.setclock v)
  | boardtext (a l act : Nat) (t : Text) (d : Nat) (blink bad : Bool) : GatePasses (.boardtext a l act t d blink bad)
  | clearnote (es : List ClearEntry) : GatePasses (.clearnote es)
  | restart (k : Nat) : GatePasses (.restart k)

/-- The commands of the requests that are answered at the gate, each with its tag and request. -/
inductive GatedRow : Instr → Nat → Request → Prop where
  | openday (tag o c : Nat) : GatedRow (.openday tag o c) tag (.openday o c)
  | confpark (tag : Nat) (g : Params) : GatedRow (.confpark tag g) tag (.confpark g)
  | closeday (tag : Nat) : GatedRow (.closeday tag) tag .closeday
  | confride (tag r : Nat) (f : RideFields) : GatedRow (.confride tag r f) tag (.confride r false f false)
  | confrideRemove (tag r : Nat) : GatedRow (.confrideRemove tag r) tag (.confride r true {} false)
  | setride (a : RideAction) (tag r g o : Nat) : GatedRow (setrideCommand a tag r g o) tag (.setride r (actionCode a) g o)
  | setqueue (tag r g o q : Nat) : GatedRow (.setqueue tag r g o q) tag (.setqueue r g o q)
  | setwindow (tag r g o i j v : Nat) : GatedRow (.setwindow tag r g o i j v) tag (.setwindow r g o i j v)
  | reserve (tag r k p g o : Nat) : GatedRow (.reserve tag r k p g o) tag (.reserve r k p g o 0)
  | reserveQuote (tag r k p g o : Nat) : GatedRow (.reserveQuote tag r k p g o) tag (.reserve r k p g o 1)
  | redeem (tag n k : Nat) : GatedRow (.redeem tag n k) tag (.redeem n k)
  | void (tag n : Nat) : GatedRow (.void tag n) tag (.void n)
  | confboard (tag a : Nat) (kind ride : Option Nat) :
      GatedRow (.confboard tag a kind ride) tag (.confboard a false kind ride false)
  | confboardRemove (tag a : Nat) : GatedRow (.confboardRemove tag a) tag (.confboard a true none none false)
  | confpane (tag a n : Nat) (list : List Nat) (rows pp : Nat) (skip : Bool) (fit : Nat) :
      GatedRow (.confpane tag a n list rows pp skip fit) tag (.confpane a n list rows pp skip fit false)
  | confnote (tag : Nat) (es : List NoteEntry) : GatedRow (.confnote tag es) tag (.confnote es)

/-- The query commands, each with its request and the answer of its owner (R8, R58, R82, R100, R116, R129 to R131, R156,
R167, R180). A RESERVE with QUOTE is gated as a command, so it is not here. -/
inductive IsQuery : Instr → Nat → Request → (State → ReplyBody) → Prop where
  | fieldinfo (tag r : Nat) : IsQuery (.fieldinfo tag r) tag (.fieldinfo r) (fieldinfoReply r)
  | rideinfo (tag r : Nat) : IsQuery (.rideinfo tag r) tag (.rideinfo r) (rideinfoReply r)
  | windowinfo (tag r i : Nat) : IsQuery (.windowinfo tag r i) tag (.windowinfo r i) (windowinfoReply r i)
  | lookup (tag n : Nat) : IsQuery (.lookup tag n) tag (.lookup n) (lookupReply n)
  | listpasses (tag r : Nat) (w : Option Nat) (c : Nat) :
      IsQuery (.listpasses tag r w c) tag (.listpasses r w c false) (listpassesReply r w c false)
  | accountinfo (tag k : Nat) : IsQuery (.accountinfo tag k) tag (.accountinfo k) (accountinfoReply k)
  | boardinfo (tag a : Nat) : IsQuery (.boardinfo tag a) tag (.boardinfo a) (boardinfoReply a)
  | noteinfo (tag c : Nat) : IsQuery (.noteinfo tag c) tag (.noteinfo c) (noteinfoReply c)
  | status (tag : Nat) : IsQuery (.status tag) tag .status (fun s => .status .done s.statusView)

/-- The Operations Port, the send list and the notice slots (R163, R171, R172, R173, R175). -/
structure PortInv (s : State) : Prop where
  inputs : s.port.input.length ≤ Config.inputPlaces
  outputs : s.port.output.length ≤ Config.outputPlaces
  /-- at most two replies can wait (R173) -/
  waits : s.port.waiting.length + s.time.pendingOpen.isSome.toNat ≤ 2
  /-- a reply or a notice waits only while the output queue is full -/
  full : s.port.waiting ≠ [] ∨ s.notices.sendList ≠ [] → s.port.output.length = Config.outputPlaces
  /-- a slot on the send list has its record latched, unmasked and unsent -/
  listed : ∀ id ∈ s.notices.sendList,
    (s.slot id).pending.isSome = true ∧ (s.slot id).mask = false ∧ (s.slot id).sent = false
  once : s.notices.sendList.Nodup
  slots : s.notices.slots.wf
  counters : s.port.crcErrors ≤ Config.counterMax ∧ s.port.timeouts ≤ Config.counterMax ∧
    s.port.overruns ≤ Config.counterMax

/-- Whenever the day state is not DAY, no pass is ISSUED or FLEX and every ride is CLOSED (R5). -/
structure DayInv (s : State) : Prop where
  keyed : s.units.wf
  rides : s.time.day ≠ .day → ∀ x ∈ s.units, x.2.state = .closed
  passes : s.time.day ≠ .day → ∀ x ∈ s.book.passes, x.2.state ≠ .issued ∧ x.2.state ≠ .flex

/-- No window is oversold, and no ride has more unplaced flex guests than flex guests (R84, R95, R96); the tables the
windows and passes stand in have their keys rising. -/
structure BookInv (s : State) : Prop where
  units : s.units.wf
  keyed : s.book.rides.wf
  passes : s.book.passes.wf
  windows : ∀ x ∈ s.book.rides, ∀ w ∈ x.2.windows, w.issued + w.hold ≤ w.cap
  flex : ∀ x ∈ s.book.rides, x.2.u ≤ x.2.f

/-- The ranges of an estimator record (R60). -/
structure EstimatorRange (e : Estimator) : Prop where
  q : e.q ≤ Config.queueMax
  s : e.s ≤ Config.rateMax
  sr : e.sr ≤ Config.rateMax
  m : e.m ≤ Config.accumulatorMax
  mr : e.mr ≤ Config.accumulatorMax
  heldMin : e.heldMin ≤ Config.waitMax
  staleTimer : e.staleTimer ≤ 255
  wr : e.wr ≤ Config.waitMax
  wt : e.wt ≤ Config.waitMax
  value : ∀ w, e.wait = some w → w.value ≤ 240

/-- The ranges of a ride configuration record (R19). -/
structure ConfigRange (g : RideConfig) : Prop where
  fullName : fullNameText g.fullName = true
  shortName : ∀ t, g.shortName = some t → shortNameText t = true ∧ t ≠ []
  fieldAddress : 1 ≤ g.fieldAddress ∧ g.fieldAddress ≤ 254
  c : g.c ≤ 9999
  p : g.p ≤ 12
  walk : g.walk ≤ 30
  opensAt : ∀ m, g.opensAt = some m → m ≤ 1439
  codePersist : 2 ≤ g.codePersist ∧ g.codePersist ≤ 120
  clearPersist : 10 ≤ g.clearPersist ∧ g.clearPersist ≤ 600
  stallTime : 30 ≤ g.stallTime ∧ g.stallTime ≤ 900
  downAfter : 1 ≤ g.downAfter ∧ g.downAfter ≤ 60
  testDispatches : g.testDispatches ≤ 20
  testMinutes : g.testMinutes ≤ 30

/-- The ranges of a ride record (R18). -/
structure UnitRange (u : RideUnit) : Prop where
  config : ConfigRange u.config
  since : ∀ t, u.since = some t → t ≤ 86399
  stall : u.stall ≤ 900
  fault : u.fault ≤ 120
  clear : u.clear ≤ 600
  testDispatches : u.testDispatches ≤ 255
  testMinutes : u.testMinutes ≤ 255

/-- The ranges of a field record (R43). -/
structure FieldRange (f : FieldRecord) : Prop where
  address : 1 ≤ f.address ∧ f.address ≤ 254
  misses : f.misses ≤ 255
  entered : f.base.entered ≤ 65535
  standby : f.base.standby ≤ 65535
  ret : f.base.ret ≤ 65535
  dispatches : f.base.dispatches ≤ 65535
  lastCode : ∀ c, f.lastCode = some c → c ≤ 255
  gap : f.gap ≤ 255

/-- The ranges of the park parameter set (R12). -/
structure ParamsRange (p : Params) : Prop where
  k : 1 ≤ p.k ∧ p.k ≤ 16
  l : p.l ∈ [5, 10, 15, 20, 30, 60]
  step : p.step ∈ [1, 5, 10]
  postMax : 30 ≤ p.postMax ∧ p.postMax ≤ 240 ∧ p.step ∣ p.postMax
  hyst : p.hyst ≤ 30
  jump : p.jump ≤ 120
  staleHold : p.staleHold ≤ 30
  silencePolls : 3 ≤ p.silencePolls ∧ p.silencePolls ≤ 20
  lead : p.lead ≤ 120
  gEarly : p.gEarly ≤ 15
  gLate : p.gLate ≤ 60
  a : 1 ≤ p.a ∧ p.a ≤ 4
  d : p.d ≤ 255
  slotLow : p.slotLow ≤ 999
  passInterval : 1 ≤ p.passInterval ∧ p.passInterval ≤ 10
  blinkPasses : p.blinkPasses ≤ 15
  blinkDuty : p.blinkDuty ∈ [25, 50, 75]
  texts : ∀ t ∈ [p.text1, p.text2, p.text3], t.length = 20 ∧ printable t = true

/-- The ranges of a line record (R135, R154): an override in place has at least one minute left, for the minute tick that
leaves it none removes it (R155). -/
structure LineRange (l : Line) : Prop where
  left : ∀ o n, l.override = some o → o.left = .minutes n → 1 ≤ n ∧ n ≤ 1440
  text : ∀ o, l.override = some o → o.text.length = 20
  blink : l.blink ≤ 15

/-- The ranges of CLOCK, the park parameter set, the records a ride has and the lines of the boards (R1, R12, R18, R19, R43,
R60, R135), the commands that wait being well formed. -/
structure RangeInv (s : State) : Prop where
  commands : ∀ i ∈ s.pending, i.wf = true
  clock : s.time.clock ≤ 86399
  params : ParamsRange s.time.params
  keyed : s.units.wf
  rides : ∀ x ∈ s.units, 1 ≤ x.1 ∧ x.1 ≤ 48
  ests : ∀ x ∈ s.ests, EstimatorRange x.2
  units : ∀ x ∈ s.units, UnitRange x.2
  fields : ∀ x ∈ s.poller.records, FieldRange x.2
  lines : ∀ x ∈ s.boards.table, ∀ l ∈ x.2.lines, LineRange l

/-- The invariants together: what every state of a run meets. -/
structure Inv (s : State) : Prop where
  port : PortInv s
  day : DayInv s
  book : BookInv s
  range : RangeInv s

end Sys2Proof.Safety
end

