-- ==== Sys2Proof/Certificates/Slice0/Obligations.lean ====
section
/-! DEFINITION. The statements for the provers. -/

open Sys2Proof Sys2Proof.Machine Sys2Proof.Safety

/-! ### The queue of commands -/

/-- A step takes the command at the front of the queue and is exec of it with the queue's rest; on an empty queue the
block idles (the model's choice, log 3). -/
def Obligations.StepTakesFront : Prop :=
  (∀ (c : Instr) (cs : List Instr) (s : State), s.pending = c :: cs → step s = exec c { s with pending := cs }) ∧
  ∀ s : State, s.pending = [] → step s = .next s

/-- Every command answers a next state in every state, and leaves the queue of waiting commands as it is. That a command
whose condition does not hold changes nothing, and so answers one, is the model's choice (log 2); so is that nothing a
command does touches the queue (log 26). -/
def Obligations.EveryCommandCompletes : Prop :=
  ∀ (c : Instr) (s : State), ∃ t, exec c s = .next t ∧ t.pending = s.pending

/-! ### Reset and invariants -/

/-- POWER_ON brings every field of every block to its reset value, the default parameter set of R12 written out among them.
`sent` and `sending` are the model's own records of what was last put on a line, and have a value of its choice (log 20);
the open orders and the waiting commands are the model's own too, and stand (log 4). -/
def Obligations.PowerOnResets : Prop :=
  ∀ s : State, ∃ t, exec .powerOn s = .next t ∧
    t.time.clock = 0 ∧ t.time.clockState = .unset ∧ t.time.hold = 0 ∧ t.time.day = .idle ∧ t.time.plan = none ∧
    t.time.schedule = [] ∧ t.time.position = 0 ∧ t.time.openMarks = [] ∧ t.time.closePassed = false ∧ t.time.params =
      { k := 4, l := 15, step := 5, postMax := 120, hyst := 5, jump := 20, staleHold := 5, silencePolls := 5, lead := 30
        gEarly := 5, gLate := 15, a := 1, d := 0, slotLow := 20, passInterval := 2, blinkPasses := 6, blinkDuty := 50
        text1 := List.replicate 20 0x20#8, text2 := List.replicate 20 0x20#8, text3 := List.replicate 20 0x20#8 } ∧
    t.time.pendingOpen = none ∧ t.time.erase = none ∧
    t.units = [] ∧ t.poller.records = [] ∧ t.poller.line = .idle ∧ t.poller.last = 0 ∧ t.poller.sent = [] ∧
    t.ests = [] ∧
    t.book.rides = [] ∧ t.book.late = [] ∧ t.book.passes = [] ∧ t.book.retired = [] ∧ t.book.serial = 1 ∧ t.book.accounts = [] ∧
    t.book.activeCount = 0 ∧ t.book.bookLevel = false ∧
    t.boards.table = [] ∧ t.boards.timer = 0 ∧ t.boards.due = false ∧ t.boards.pass = none ∧ t.boards.line = .idle ∧
    t.boards.startOwed = false ∧ t.boards.sent = [] ∧
    (∀ id, t.slot id = { pending := none, mask := true, sent := false, image := false }) ∧
    (∀ c : NoteClass, t.notices.edges.of c = .rise) ∧ t.notices.sendList = [] ∧
    t.port.receiver = .hunt ∧ t.port.input = [] ∧ t.port.output = [] ∧ t.port.waiting = [] ∧
    t.port.noticesLast = true ∧ t.port.restartPending = none ∧ t.port.sending = none ∧
    t.port.crcErrors = 0 ∧ t.port.timeouts = 0 ∧ t.port.overruns = 0 ∧
    t.orders = s.orders ∧ t.pending = s.pending

/-- The state after power-on meets every invariant. -/
def Obligations.InvariantsAtReset : Prop := Inv State.reset

/-- Every step keeps the invariant of the Operations Port and the send list. -/
def Obligations.PortInvariantKept : Prop :=
  ∀ s t : State, PortInv s → step s = .next t → PortInv t

/-- Every step keeps: outside DAY no pass is ISSUED or FLEX and every ride is CLOSED. -/
def Obligations.DayInvariantKept : Prop :=
  ∀ s t : State, DayInv s → step s = .next t → DayInv t

/-- Every step keeps: no window is oversold, and U is at most F. -/
def Obligations.BookInvariantKept : Prop :=
  ∀ s t : State, BookInv s → step s = .next t → BookInv t

/-- Every step keeps the ranges of CLOCK, of the park parameter set, of every quantity of the ride, configuration, field
and estimator records, and of the override and blink count of every board line, the commands that wait being well formed.
An override in place has at least one minute left. -/
def Obligations.RangeInvariantKept : Prop :=
  ∀ s t : State, RangeInv s → step s = .next t → RangeInv t

/-! ### Time -/

/-- A second of the reference clock that does not advance CLOCK: a hold counts down by one (SECOND_TICK and HOLD_COUNTDOWN
in any hold, HOLD_END at 1), an UNSET CLOCK stands; only what is timed on the reference clock goes on.
The model's choices: the rows that stand for such a second (log 7), the erase counted in whole seconds and held at 2
(log 6), and an interval timer that stands while a pass start is owed (log 8). -/
def Obligations.ClockStandsStill : Prop :=
  ∀ (c : Instr) (s : State),
    ((c = .secondTick ∨ c = .holdCountdown) ∧ 0 < s.time.hold) ∨ (c = .holdEnd ∧ s.time.hold = 1) ∨
      (c = .secondTick ∧ s.time.hold = 0 ∧ s.time.clockState = .unset) →
    ∃ t, exec c s = .next t ∧
      t.time = { s.time with hold := s.time.hold - 1, erase := s.time.erase.map fun n => min 2 (n + 1) } ∧
      t.boards = { s.boards with timer := if s.boards.startOwed then s.boards.timer else s.boards.timer + 1 } ∧
      t.units = s.units ∧ t.poller = s.poller ∧ t.ests = s.ests ∧ t.book = s.book ∧ t.notices = s.notices ∧
      t.port = s.port ∧ t.orders = s.orders

/-- A second of a RUNNING CLOCK that is not holding makes one advance; a forward correction makes its advances one after the
other, each marked. An advance, marked (`forward`) or not: CLOCK goes on by one, wrapping at midnight, and what it delivers is
taken. `d` says what is delivered: the mark; the minute tick into a new minute; in DAY, with it, the list events due from the
position on and the opening events of the rides whose OPENS_AT the minute is and whose mark is clear. `s1` is the state once
CLOCK, the position and the marks have moved. Each taking is made once, in an order that is a free value; which takings there
are is the model's cut (log 4), the late reports among them (log 30), the window events of a ride one taking (log 32), and all
of them within the advance (log 43). The model's choices too: the erase counted in whole seconds and held at 2 (log 6), and an
interval timer that stands while a pass start is owed (log 8). -/
def Obligations.SecondTickAdvances : Prop :=
  (∀ s : State, s.time.hold = 0 → s.time.clockState = .running →
    exec .secondTick s = .next (advance false { s with
      time := { s.time with erase := s.time.erase.map fun n => min 2 (n + 1) }
      boards := { s.boards with timer := if s.boards.startOwed then s.boards.timer else s.boards.timer + 1 } })) ∧
  (∀ s : State, advances 0 s = s) ∧ (∀ (n : Nat) (s : State), advances (n + 1) s = advances n (advance true s)) ∧
  ∀ (forward : Bool) (s : State), s.time.clock < 86400 → s.units.wf →
    ∃ (t s1 : State) (d : Delivery) (order : List Taking),
      t = advance forward s ∧ t = order.foldl (take d) s1 ∧
      d.forward = forward ∧ d.minuteTick = decide ((s.time.clock + 1) % 60 = 0) ∧
      (d.minuteTick = true → s.time.day = .day →
        d.events = ((s.time.schedule.drop s.time.position).takeWhile fun e =>
          e.minute % 1440 = (s.time.clock + 1) / 60 % 1440).map (·.event) ∧
        ∀ r, r ∈ d.openings ↔ (∃ u, s.units.find r = some u ∧
          u.config.opensAt = some ((s.time.clock + 1) / 60 % 1440)) ∧ r ∉ s.time.openMarks) ∧
      (d.minuteTick = false ∨ s.time.day ≠ .day → d.events = [] ∧ d.openings = []) ∧
      s1.time = { s.time with
        clock := (s.time.clock + 1) % 86400
        position := s.time.position + d.events.length
        openMarks := s1.time.openMarks } ∧
      (∀ r, r ∈ s1.time.openMarks ↔ r ∈ s.time.openMarks ∨ r ∈ d.openings) ∧
      s1.boards = s.boards ∧ s1.units = s.units ∧ s1.poller = s.poller ∧ s1.ests = s.ests ∧ s1.book = s.book ∧
      s1.notices = s.notices ∧ s1.port = s.port ∧
      (order.map plain).Perm
        ((if s.book.late = [] then [] else [.lateReports]) ++ s.units.keys.map .second ++
          (if d.minuteTick then s.units.keys.map .testMinute ++ s.units.keys.map .estimator ++ [.overrides] else []) ++
          (if d.events = [] then [] else s.units.keys.map .windows) ++
          (if .parkClose ∈ d.events then .closePassed :: s.units.keys.map .parkClose else []) ++
          d.openings.map .opening) ∧
      t.time = { s1.time with closePassed := s.time.closePassed || decide (.parkClose ∈ d.events) } ∧
      t.poller = s.poller

/-- SETCLOCK outside DAY sets CLOCK at once, ends a hold, and delivers no tick. -/
def Obligations.SetclockOutsideDay : Prop :=
  ∀ (tag v : Nat) (s : State), Offered tag (.setclock v) s → s.time.day ≠ .day →
    exec (.setclock tag v) s = .next
      (enterReply
        (.reply tag 1 (.setclock (if 86399 < v then .clamped else .done) (min v 86399) .running 0))
        { s.popInput with time := { s.time with clock := min v 86399, clockState := .running, hold := 0 } })

/-- SETCLOCK in DAY, by the distance `x` ahead of CLOCK around midnight: BUSY in a hold; nothing for 0; for 1 to
120, ELIGIBLE is cleared and `x` marked advances are made one after the other (what each delivers: SecondTickAdvances); a
hold of 86,400 − x for 120 or fewer back; BAD_STATE otherwise. -/
def Obligations.SetclockInDay : Prop :=
  ∀ (tag v x : Nat) (s : State), Offered tag (.setclock v) s → s.time.day = .day → s.time.clock < 86400 →
    s.time.clockState = .running → x = (min v 86399 + 86400 - s.time.clock) % 86400 →
    ∃ (t : State) (o : Code), exec (.setclock tag v) s = .next t ∧
      Replied (.reply tag 1 (.setclock o t.time.clock t.time.clockState t.time.hold)) t ∧
      t.time.clockState = .running ∧ t.time.day = .day ∧ t.poller = s.poller ∧
      (if 0 < s.time.hold then
        o = .busy ∧ t.time = s.time ∧ t.ests = s.ests ∧ t.units = s.units ∧ t.book = s.book ∧ t.boards = s.boards ∧
          t.notices = s.notices
      else if x = 0 then
        o = (if 86399 < v then .clamped else .done) ∧ t.time = s.time ∧ t.ests = s.ests ∧ t.units = s.units ∧
          t.book = s.book ∧ t.boards = s.boards ∧ t.notices = s.notices
      else if x ≤ 120 then
        o = (if 86399 < v then .clamped else .done) ∧ t.time.clock = min v 86399 ∧ t.time.hold = 0 ∧
          t = enterReply (.reply tag 1 (.setclock o (min v 86399) .running 0))
            (advances x (clearEligible s.popInput))
      else if 86400 ≤ x + 120 then
        o = (if 86399 < v then .clamped else .done) ∧ t.time = { s.time with hold := 86400 - x } ∧
          (∀ r e, s.ests.find r = some e → t.ests.find r = some { e with eligible := false }) ∧ t.units = s.units ∧
          t.book = s.book ∧ t.boards = s.boards ∧ t.notices = s.notices
      else
        o = .badState ∧ t.time = s.time ∧ t.ests = s.ests ∧ t.units = s.units ∧ t.book = s.book ∧
          t.boards = s.boards ∧ t.notices = s.notices)

/-! ### The park day -/

/-- An OPENDAY that is taken: the plan, the day schedule built from it, the empty book, the pending reply, OPENING; no
reply is formed, so what is new in the output queue are notices. -/
def Obligations.OpendayTaken : Prop :=
  ∀ (tag o c : Nat) (s : State), Offered tag (.openday o c) s → s.time.day = .idle ∨ s.time.day = .after →
    s.time.clockState = .running → min o 1439 + 60 ≤ min c 1439 → min c 1439 + s.time.params.gLate ≤ 1439 →
    ∃ t, exec (.openday tag o c) s = .next t ∧ t.time.day = .opening ∧
      t.time.plan = some
        { openMin := min o 1439, closeMin := min c 1439, len := s.time.params.l
          n := min 96 ((min c 1439 - min o 1439) / s.time.params.l) } ∧
      t.time.pendingOpen = some (tag,
        if 1439 < o ∨ 1439 < c ∨ 96 < (min c 1439 - min o 1439) / s.time.params.l then .clamped else .done) ∧
      (∀ plan, t.time.plan = some plan → IsSchedule plan s.time.params.gLate t.time.schedule) ∧
      t.time.erase = some 0 ∧ t.time.position = 0 ∧ t.time.closePassed = false ∧
      t.time.clock = s.time.clock ∧ t.time.hold = s.time.hold ∧ t.time.params = s.time.params ∧
      t.book.rides = [] ∧ t.book.passes = [] ∧ t.book.retired = [] ∧ t.book.serial = 1 ∧ t.book.accounts = [] ∧
      t.book.activeCount = 0 ∧ t.book.bookLevel = false ∧
      t.units = s.units ∧ t.ests = s.ests ∧ t.poller = s.poller ∧ t.boards = s.boards ∧ t.port.waiting = [] ∧
      (∃ ns, t.port.output = s.port.output ++ ns ∧ ∀ x ∈ ns, ∃ id l, x = .notice id l) ∧ PortKept s.popInput t

/-- The end of the opening erase, every ride being CLOSED: DAY, the rides' records, estimates and windows of the new day,
and the reply to OPENDAY. The list events already due at the current minute are delivered, and the position stands after them;
with the schedule of the plan, the windows that have started are STARTED and INTERRUPTED, and those whose GRACE_END is past are
RESOLVED. That the row runs once two reference seconds have passed is the model's choice (log 6). -/
def Obligations.OpeningEnds : Prop :=
  ∀ (s : State) (plan : Plan) (tag : Nat) (o : Code), s.time.day = .opening → s.time.erase = some 2 →
    s.time.plan = some plan → s.time.pendingOpen = some (tag, o) → s.port.waiting = [] →
    (∀ x ∈ s.units, x.2.state = .closed) →
    ∃ t, exec .openingEnd s = .next t ∧ t.time.day = .day ∧ t.time.erase = none ∧ t.time.pendingOpen = none ∧
      t.time.openMarks = [] ∧ t.time.plan = some plan ∧ t.time.clock = s.time.clock ∧
      t.time.schedule = s.time.schedule ∧ t.time.params = s.time.params ∧
      t.time.closePassed = ((s.time.schedule.takeWhile fun e => e.minute ≤ s.minute).any fun e =>
        e.event = .parkClose) ∧
      Replied (.reply tag 2 (.openday o (some plan))) t ∧
      (∀ r u, s.units.find r = some u → t.units.find r = some
        { u with since := s.clockNow, stall := 0, testDispatches := 0, testMinutes := 0 }) ∧
      (∀ r u e, s.units.find r = some u → s.ests.find r = some e → t.ests.find r = some
        { e with
          q := 0, s := u.config.c * (16 - u.config.p) / 120, sr := u.config.c * u.config.p / 120, m := 0, mr := 0
          eligible := false, heldMin := 0, renew := false, wr := 0, wt := 0, wait := none }) ∧
      (∀ r u, s.units.find r = some u → (t.rideBook r).gridEnded =
        ((s.time.schedule.takeWhile fun e => e.minute ≤ s.minute).any fun e => e.event = .gridEnd)) ∧
      t.time.position = (s.time.schedule.takeWhile fun e => e.minute ≤ s.minute).length ∧
      (IsSchedule plan s.time.params.gLate s.time.schedule → ∀ r u, s.units.find r = some u →
        ∀ w ∈ (t.rideBook r).windows, (w.started = true ↔ w.startMin ≤ s.minute) ∧
          (w.interrupted = true ↔ w.startMin ≤ s.minute) ∧ (w.resolved = true ↔ w.graceEnd < s.minute)) ∧
      (∀ r u, s.units.find r = some u → (t.rideBook r).f = 0 ∧ (t.rideBook r).u = 0 ∧
        (t.rideBook r).windows.map (fun w => (w.index, w.startMin, w.endMin, w.graceEnd)) =
          (List.range plan.n).map fun i =>
            (i, plan.openMin + plan.len * i, plan.openMin + plan.len * i + plan.len,
              plan.openMin + plan.len * i + plan.len + s.time.params.gLate)) ∧
      (∀ r u, s.units.find r = some u → ∀ w ∈ (t.rideBook r).windows,
        w.cap = u.config.c * u.config.p * plan.len / 960 ∧ w.issued = 0 ∧ w.hold = 0 ∧ w.passes = []) ∧
      t.book.serial = 1 ∧ t.book.passes = s.book.passes ∧ t.poller = s.poller ∧ t.boards = s.boards ∧ PortKept s t

/-- CLOSEDAY in DAY: AFTER, every ride CLOSED with its test counts and stall timer 0 and its Q 0, every active pass EXPIRED and
retired in increasing pass number, every window resolved, F and U 0. The model's readings and choices: the stall timer of a
ride already CLOSED becomes 0 too (log 11, DEDUCED); reports that the Return Book had left for later are taken after the
resolution, so that no window gains a mark from them and none is left (log 30, DESIGN CHOICE); whether the end of the grid was
taken stands (log 41, DESIGN CHOICE). -/
def Obligations.ClosedayCloses : Prop :=
  ∀ (tag : Nat) (s : State) (active : List Nat), Offered tag .closeday s → s.time.day = .day → s.book.passes.wf →
    active.Pairwise (· < ·) → (∀ n, n ∈ active ↔ ∃ p, s.book.passes.find n = some p ∧ (p.state = .issued ∨ p.state = .flex)) →
    ∃ t, exec (.closeday tag) s = .next t ∧
      t.time = { s.time with day := .after, schedule := [], position := 0 } ∧
      (∀ r u, s.units.find r = some u → t.units.find r = some
        (if u.state = .closed then { u with stall := 0 }
        else { u with state := .closed, since := s.clockNow, stall := 0, testDispatches := 0, testMinutes := 0 })) ∧
      (∀ r u e, s.units.find r = some u → s.ests.find r = some e → t.ests.find r = some
        (if u.state = .closed then e else { e with q := 0, eligible := false, wait := none })) ∧
      (∀ n p, s.book.passes.find n = some p → t.book.passes.find n = some
        (if n ∈ active then { p with state := .expired, retiredAt := some s.minute } else p)) ∧
      t.book.retired = s.book.retired ++ active ∧ t.book.activeCount = s.book.activeCount - active.length ∧
      (∀ k a, s.book.accounts.find k = some a → t.book.accounts.find k = some { a with active := [] }) ∧
      t.book.accounts.keys = s.book.accounts.keys ∧ t.book.rides.keys = s.book.rides.keys ∧
      (∀ r b, s.book.rides.find r = some b → ∃ b', t.book.rides.find r = some b' ∧ b'.f = 0 ∧ b'.u = 0 ∧
        b'.flexLevel = false ∧ b'.gridEnded = b.gridEnded ∧
        b'.windows = b.windows.map fun w => { w with passes := [], hold := 0, resolved := true }) ∧
      t.book.bookLevel = decide (44237 ≤ t.book.activeCount ∨ 22119 ≤ t.book.accounts.length) ∧
      t.book.serial = s.book.serial ∧ t.book.late = [] ∧ t.poller = s.poller ∧
      Replied (.reply tag 3 (.closeday .done)) t ∧ PortKept s.popInput t

/-- CONFPARK: taken in IDLE and AFTER when well formed, refused BAD_STATE in DAY and OPENING (the day state before the
structure: the model's choice, log 17); nothing but the parameter set changes. -/
def Obligations.ConfparkTaken : Prop :=
  (∀ (tag : Nat) (g : Params) (s : State), Offered tag (.confpark g) s →
    ((s.time.day = .idle ∨ s.time.day = .after) → paramsWellFormed g = true →
      exec (.confpark tag g) s = .next
        (enterReply (.reply tag 4 (.confpark (if paramsChanged g then .clamped else .done) (storedParams g)))
          { s.popInput with time := { s.time with params := storedParams g } })) ∧
    ((s.time.day = .idle ∨ s.time.day = .after) → paramsWellFormed g = false →
      exec (.confpark tag g) s = .next
        (enterReply (.reply tag 4 (.confpark .malformed s.time.params)) s.popInput)) ∧
    ((s.time.day = .day ∨ s.time.day = .opening) →
      exec (.confpark tag g) s = .next
        (enterReply (.reply tag 4 (.confpark .badState s.time.params)) s.popInput))) ∧
  (∀ g : Params, paramsWellFormed g = true ↔ ∀ x ∈ [g.text1, g.text2, g.text3],
    x.length ≤ 20 ∧ ∀ b ∈ x, 0x20 ≤ b.toNat ∧ b.toNat ≤ 0x7E) ∧
  (∀ g p : Params, p = storedParams g →
    p.k = max 1 (min 16 g.k) ∧ p.hyst = min 30 g.hyst ∧ p.jump = min 120 g.jump ∧ p.staleHold = min 30 g.staleHold ∧
    p.silencePolls = max 3 (min 20 g.silencePolls) ∧ p.lead = min 120 g.lead ∧ p.gEarly = min 15 g.gEarly ∧
    p.gLate = min 60 g.gLate ∧ p.a = max 1 (min 4 g.a) ∧ p.d = min 255 g.d ∧ p.slotLow = min 999 g.slotLow ∧
    p.passInterval = max 1 (min 10 g.passInterval) ∧ p.blinkPasses = min 15 g.blinkPasses ∧
    NearestListed g.l p.l [5, 10, 15, 20, 30, 60] ∧ NearestListed g.step p.step [1, 5, 10] ∧
    NearestListed g.blinkDuty p.blinkDuty [25, 50, 75] ∧
    p.step ∣ p.postMax ∧ p.postMax ≤ max 30 (min 240 g.postMax) ∧ max 30 (min 240 g.postMax) < p.postMax + p.step ∧
    p.text1 = g.text1 ++ List.replicate (20 - g.text1.length) 0x20#8 ∧
    p.text2 = g.text2 ++ List.replicate (20 - g.text2.length) 0x20#8 ∧
    p.text3 = g.text3 ++ List.replicate (20 - g.text3.length) 0x20#8) ∧
  ∀ g p : Params, p = storedParams g → (paramsChanged g = false ↔
    p = { g with text1 := p.text1, text2 := p.text2, text3 := p.text3 })

/-- The opening event and the park close of a ride, as takings of the Ride State Unit. The opening event takes a CLOSED ride
to TESTING (FROM_CLOSED) with its test counts 0, and leaves any other STATE (R24). The park close sets CLOSE_PASSED, takes an
OPEN or HELD ride to CLOSING, and through it to CLOSED when the close check holds, and leaves any other STATE (R25, R26). -/
def Obligations.OpeningAndParkClose : Prop :=
  ∀ (d : Delivery) (r : Nat) (s : State) (u : RideUnit) (e : Estimator), s.units.find r = some u →
    s.ests.find r = some e →
    (u.state = .closed → ∃ t, t = take d s (.opening r) ∧ t.units.find r = some
        { u with state := .testing .fromClosed, since := s.clockNow, testDispatches := 0, testMinutes := 0 } ∧
      OthersKept r s.units t.units ∧ t.time = s.time ∧ t.poller = s.poller ∧ PassesKept s t ∧ PortKept s t) ∧
    (u.state ≠ .closed → take d s (.opening r) = s) ∧
    (u.state = .opened ∨ (∃ c, u.state = .held c) → ∃ t, t = take d s (.parkClose r) ∧ t.units.find r = some
        { u with state := if e.q = 0 ∧ s.allResolved r = true then .closed else .closing, since := s.clockNow } ∧
      (u.state = .held .stall → (t.slot ⟨.stall, r⟩).image = false) ∧
      OthersKept r s.units t.units ∧ t.time = { s.time with closePassed := true } ∧ t.poller = s.poller ∧
      PassesKept s t ∧ PortKept s t) ∧
    (¬(u.state = .opened ∨ ∃ c, u.state = .held c) →
      take d s (.parkClose r) = { s with time := { s.time with closePassed := true } }) ∧
    take d s .closePassed = { s with time := { s.time with closePassed := true } }

/-! ### Configuration of rides -/

/-- CONFRIDE for an unconfigured ride in IDLE or AFTER creates its records. -/
def Obligations.ConfrideCreates : Prop :=
  ∀ (tag r : Nat) (f : RideFields) (name : Text) (address : Nat) (s : State),
    Offered tag (.confride r false f false) s → s.time.day = .idle ∨ s.time.day = .after → 1 ≤ r → r ≤ 48 →
    s.units.find r = none → f.fullName = some name → f.fieldAddress = some address → s.fieldsMalformed r f = false →
    ∃ (t : State) (c : RideConfig), exec (.confride tag r f) s = .next t ∧
      c = RideConfig.default.store (clampFields f) ∧ c.fullName = name ∧ c.fieldAddress = address ∧
      t.units.find r = some
        { config := c, state := .closed, since := s.clockNow, stall := 0, fault := 0, clear := 0
          codeLevel := false, testDispatches := 0, testMinutes := 0 } ∧
      t.poller.records.find r = some
        { address := address, link := .never, misses := 0, baseValid := false
          base := { entered := 0, standby := 0, ret := 0, dispatches := 0 }, lastCode := none, gap := 0 } ∧
      t.ests.find r = some
        { q := 0, s := c.c * (16 - c.p) / 120, sr := c.c * c.p / 120, m := 0, mr := 0
          eligible := false, heldMin := 0, staleTimer := 0, stale := false, renew := false, wr := 0, wt := 0
          wait := none } ∧
      (t.rideBook r).windows = [] ∧
      OthersKept r s.units t.units ∧ OthersKept r s.poller.records t.poller.records ∧ OthersKept r s.ests t.ests ∧
      OthersKept r s.book.rides t.book.rides ∧ PassesKept s t ∧ t.poller.line = s.poller.line ∧
      t.time = s.time ∧ t.boards = s.boards ∧ t.notices = s.notices ∧ PortKept s.popInput t ∧
      Replied (.reply tag 5 (.confride (if clampFields f ≠ f then .clamped else .done) (some c))) t

/-- A CONFRIDE that R20 does not refuse, for a configured ride: the fields given replace the stored ones and no timer,
count or STATE moves; a new FIELD_ADDRESS reaches the Field Poller; a new C or P in DAY recomputes the capacity of the
windows not started (a value given again is no change: the model's reading, log 24). A poll of the ride that is outstanding when
its FIELD_ADDRESS changes is abandoned. The reply carries the record as stored, CLAMPED where a value given was clamped or a
window's CAP was raised to its ISSUED + HOLD. -/
def Obligations.ConfrideUpdates : Prop :=
  ∀ (tag r : Nat) (f : RideFields) (s : State) (u : RideUnit) (fr : FieldRecord),
    Offered tag (.confride r false f false) s → s.units.find r = some u → s.poller.records.find r = some fr →
    s.confrideRefusal r false f false = none →
    ∃ (t : State) (c : RideConfig) (b : RideBook), exec (.confride tag r f) s = .next t ∧
      c = u.config.store (clampFields f) ∧ t.units.find r = some { u with config := c } ∧
      t.poller.records.find r =
        some (if c.fieldAddress = u.config.fieldAddress then fr
          else { fr with address := c.fieldAddress, baseValid := false, misses := 0 }) ∧
      b = (if s.time.day = .day ∧ ¬(c.c = u.config.c ∧ c.p = u.config.p) then
          { s.rideBook r with windows := (s.rideBook r).windows.map fun w =>
              if w.started then w else { w with cap := max (s.computedCap c) (w.issued + w.hold) } }
        else s.rideBook r) ∧
      ((s.time.day = .day ∧ ¬(c.c = u.config.c ∧ c.p = u.config.p) ∧ u.state = .opened ∧ 0 < b.u) →
        (t.rideBook r).windows = (b.place s.minute).windows ∧ (t.rideBook r).u = (b.place s.minute).u) ∧
      (¬(s.time.day = .day ∧ ¬(c.c = u.config.c ∧ c.p = u.config.p) ∧ u.state = .opened ∧ 0 < b.u) →
        (t.rideBook r).windows = b.windows ∧ (t.rideBook r).u = b.u) ∧
      (t.rideBook r).f = (s.rideBook r).f ∧
      t.poller.line = (match s.poller.line with
        | .outstanding r' a got => if r' = r ∧ c.fieldAddress ≠ u.config.fieldAddress then .reserved else .outstanding r' a got
        | l => l) ∧
      t.poller.last = s.poller.last ∧ t.poller.sent = s.poller.sent ∧
      Replied (.reply tag 5 (.confride
        (if clampFields f ≠ f ∨ (s.time.day = .day ∧ ¬(c.c = u.config.c ∧ c.p = u.config.p) ∧
            ∃ w ∈ (s.rideBook r).windows, w.started = false ∧ s.computedCap c < w.issued + w.hold) then .clamped
        else .done) (some c))) t ∧
      OthersKept r s.units t.units ∧ OthersKept r s.poller.records t.poller.records ∧
      OthersKept r s.book.rides t.book.rides ∧ PassesKept s t ∧ t.ests = s.ests ∧
      t.time = s.time ∧ t.boards = s.boards ∧ PortKept s.popInput t

/-- CONFRIDE with REMOVE for a configured ride in IDLE or AFTER that no board names: its records cease to exist, its
outstanding poll is abandoned, its level images fall. -/
def Obligations.ConfrideRemoves : Prop :=
  ∀ (tag r : Nat) (s : State) (u : RideUnit), Offered tag (.confride r true {} false) s →
    s.time.day = .idle ∨ s.time.day = .after → 1 ≤ r → r ≤ 48 → s.units.find r = some u → s.boardNames r = false →
    ∃ t, exec (.confrideRemove tag r) s = .next t ∧ t.units.find r = none ∧ t.poller.records.find r = none ∧
      t.ests.find r = none ∧
      t.poller.line = (match s.poller.line with
        | .outstanding r' a got => if r' = r then .reserved else .outstanding r' a got
        | l => l) ∧
      (∀ c ∈ [NoteClass.stall, .code, .link, .slots, .flex], (t.slot ⟨c, r⟩).image = false) ∧
      OthersKept r s.units t.units ∧ OthersKept r s.poller.records t.poller.records ∧ OthersKept r s.ests t.ests ∧
      t.book = s.book ∧ t.time = s.time ∧ t.boards = s.boards ∧ PortKept s.popInput t ∧
      Replied (.reply tag 5 (.confride .done none)) t

/-! ### SETRIDE and SETQUEUE -/

/-- A SETRIDE in DAY with a guard that holds, permitted from the ride's STATE, takes the action's transition; no other
ride's record, no code level or persistence timer and no configuration moves. -/
def Obligations.SetrideTakes : Prop :=
  ∀ (a : RideAction) (tag r g o : Nat) (s : State) (u : RideUnit) (e : Estimator),
    Offered tag (.setride r (actionCode a) g o) s → s.time.day = .day → g ≤ 10 → s.guardHolds g o r = true →
    s.units.find r = some u → s.ests.find r = some e → a.permitted u.state = true →
    ∃ (t : State) (u' : RideUnit), exec (setrideCommand a tag r g o) s = .next t ∧
      u' = afterAction a s.clockNow (decide (e.q = 0) && s.allResolved r) u ∧
      t.units.find r = some u' ∧ OthersKept r s.units t.units ∧
      Replied (.reply tag 6 (.setride .done r (some (u'.state, u'.since)))) t ∧
      t.time = s.time ∧ t.poller = s.poller ∧ PassesKept s t ∧ PortKept s.popInput t

/-- SETQUEUE, taken: Q takes the value, clamped, and RENEW is set; S, SR, M and MR keep their values; a CLOSING ride whose
Q is then 0 and whose windows are resolved closes. -/
def Obligations.SetqueueTakes : Prop :=
  ∀ (tag r g o q : Nat) (s : State) (u : RideUnit) (e : Estimator), Offered tag (.setqueue r g o q) s →
    s.time.day = .day → g ≤ 10 → s.units.find r = some u → s.ests.find r = some e → u.state ≠ .closed →
    s.guardHolds g o r = true →
    ∃ (t : State) (e' : Estimator), exec (.setqueue tag r g o q) s = .next t ∧ t.ests.find r = some e' ∧
      e'.q = min q 9999 ∧ e'.renew = true ∧ e'.s = e.s ∧ e'.sr = e.sr ∧ e'.m = e.m ∧ e'.mr = e.mr ∧
      e'.heldMin = e.heldMin ∧
      t.units.find r = some (if u.state = .closing ∧ q = 0 ∧ s.allResolved r = true then
        { u with state := .closed, since := s.clockNow } else u) ∧
      Replied (.reply tag 8 (.setqueue (if 9999 < q then .clamped else .done) r (some (e'.q, e'.wait)))) t ∧
      OthersKept r s.units t.units ∧ OthersKept r s.ests t.ests ∧ t.time = s.time ∧ t.poller = s.poller ∧
      PassesKept s t ∧ PortKept s.popInput t

/-! ### Windows -/

/-- SETWINDOW, taken: CAP of the range takes the value, not below ISSUED + HOLD; the windows outside the range stand; then
placement for an OPEN ride with U above 0. Placement walks from the lead window up: each unresolved window takes a hold of
min(U, CAP / 2 - HOLD, CAP - ISSUED - HOLD), U falling by it; with no lead window nothing is placed (R96, R97). From the end
of the grid on there is none (R86). -/
def Obligations.SetwindowTakes : Prop :=
  (∀ (tag r g o i j v : Nat) (s : State) (u : RideUnit) (first last : Nat) (b : RideBook),
    Offered tag (.setwindow r g o i j v) s → s.time.day = .day → g ≤ 10 → s.units.find r = some u →
    first = min i ((s.rideBook r).windows.length - 1) → last = min j ((s.rideBook r).windows.length - 1) →
    first ≤ last → (s.windowRange r first last).all (fun w => !w.resolved) = true → s.guardHolds g o r = true →
    b = { s.rideBook r with windows := (s.rideBook r).windows.map fun w =>
      if first ≤ w.index ∧ w.index ≤ last then { w with cap := max (min v 7499) (w.issued + w.hold) } else w } →
    ∃ t, exec (.setwindow tag r g o i j v) s = .next t ∧
      (t.rideBook r).windows = (if u.state = .opened ∧ 0 < b.u then b.place s.minute else b).windows ∧
      (t.rideBook r).u = (if u.state = .opened ∧ 0 < b.u then b.place s.minute else b).u ∧
      (t.rideBook r).f = b.f ∧ OthersKept r s.book.rides t.book.rides ∧ PassesKept s t ∧
      t.time = s.time ∧ t.units = s.units ∧ t.ests = s.ests ∧ t.poller = s.poller ∧ t.boards = s.boards ∧
      PortKept s.popInput t) ∧
  ∀ (m : Nat) (b : RideBook),
    ((∀ i, ¬LeadWindow b m i) → b.place m = b) ∧
    ∀ i, LeadWindow b m i → ∃ left : Nat → Nat, left i = b.u ∧
      (b.place m).windows.length = b.windows.length ∧
      (∀ j w, b.windows[j]? = some w → ∃ h,
        h = (if j < i ∨ w.resolved = true then 0
          else min (left j) (min (w.cap / 2 - w.hold) (w.cap - w.issued - w.hold))) ∧
        (b.place m).windows[j]? = some { w with hold := w.hold + h } ∧ (i ≤ j → left (j + 1) = left j - h)) ∧
      b.place m = { b with windows := (b.place m).windows, u := left b.windows.length }

/-- A window start and the marking of windows. A window-start event (the taking of the tick's window events by the Return
Book) sets STARTED of its window and, for a ride not in service, INTERRUPTED, and judges SLOTS (R86); a resolved window
stands. The end of the grid leaves its ride without a lead window at every minute after, and judges SLOTS (R86), whose
condition and free sum follow (R98). A change into an out-of-service STATE marks the unresolved windows whose
[START, GRACE_END] holds the minute of entry (R91), at once, or, where the report meets a grace end, perhaps not before the
next advance takes the late reports (the model's choice of when, log 30). -/
def Obligations.WindowStartsAndMarks : Prop :=
  (∀ (d : Delivery) (r i : Nat) (s t : State) (u : RideUnit) (w : Window), d.events = [.windowStart i] →
    s.units.find r = some u → (s.rideBook r).windows[i]? = some w → t = take d s (.windows r) →
    (w.resolved = true → t = s) ∧
    (w.resolved = false →
      (t.rideBook r).windows = (s.rideBook r).windows.modify i (fun w =>
        { w with started := true, interrupted := w.interrupted || !u.state.inService }) ∧
      (t.rideBook r).slotsLevel = t.slotsHold r ∧ (t.rideBook r).f = (s.rideBook r).f ∧
      (t.rideBook r).u = (s.rideBook r).u ∧ OthersKept r s.book.rides t.book.rides ∧ PassesKept s t ∧
      t.book.late = s.book.late ∧ t.time = s.time ∧ t.units = s.units ∧ t.ests = s.ests ∧ t.poller = s.poller ∧
      t.boards = s.boards ∧ PortKept s t)) ∧
  (∀ (d : Delivery) (r : Nat) (s t : State) (u : RideUnit) (b : RideBook), d.events = [.gridEnd] →
    s.units.find r = some u → s.book.rides.find r = some b → t = take d s (.windows r) →
    t.rideBook r = { b with gridEnded := true, slotsLevel := t.slotsHold r } ∧ (∀ m i, ¬LeadWindow (t.rideBook r) m i) ∧
    OthersKept r s.book.rides t.book.rides ∧ PassesKept s t ∧ t.book.late = s.book.late ∧ t.time = s.time ∧
    t.units = s.units ∧ t.ests = s.ests ∧ t.poller = s.poller ∧ t.boards = s.boards ∧ PortKept s t) ∧
  (∀ (s : State) (r : Nat) (u : RideUnit), s.units.find r = some u →
    (s.slotsHold r = true ↔ (u.state = .opened ∨ (∃ c, u.state = .held c) ∨ u.state = .closing) ∧
      freeSum (s.rideBook r) s.minute < s.time.params.slotLow)) ∧
  (∀ (b : RideBook) (m : Nat), ((∀ i, ¬LeadWindow b m i) → freeSum b m = 0) ∧
    ∀ i, LeadWindow b m i → freeSum b m =
      ((((b.windows.drop i).take 4).filter fun w => !w.resolved).map fun w => w.cap - w.issued - w.hold).sum) ∧
  (∀ (r : Nat) (new : RideState) (s t : State) (u : RideUnit) (rep : StateReport), s.units.find r = some u →
    new.inService = false → s.time.clockState = .running → s.book.late = [] →
    rep = { ride := r, prev := u.state, new := new, since := some s.time.clock } → t = changeState r new s →
    (((t.rideBook r).windows = (s.rideBook r).windows.map (marked (s.time.clock / 60)) ∧ t.book.late = []) ∨
      (s.meetsGraceEnd rep = true ∧ (t.rideBook r).windows = (s.rideBook r).windows ∧ t.book.late = [rep])) ∧
    (t.rideBook r).f = (s.rideBook r).f ∧ (t.rideBook r).u = (s.rideBook r).u ∧
    OthersKept r s.book.rides t.book.rides ∧ PassesKept s t) ∧
  (∀ (s : State) (rep : StateReport), s.meetsGraceEnd rep = true ↔ rep.new.inService = false ∧
    ∃ c, rep.since = some c ∧ c % 60 = 59 ∧
      ∃ w ∈ (s.rideBook rep.ride).windows, w.resolved = false ∧ w.graceEnd = c / 60) ∧
  ∀ (d : Delivery) (c : Nat) (s t : State) (rep : StateReport), s.book.late = [rep] → rep.new.inService = false →
    rep.since = some c → t = take d s .lateReports →
    (t.rideBook rep.ride).windows = (s.rideBook rep.ride).windows.map (marked (c / 60)) ∧ t.book.late = [] ∧
    OthersKept rep.ride s.book.rides t.book.rides ∧ PassesKept s t ∧ t.units = s.units ∧ t.time = s.time

/-- A grace end (the taking of the tick's window events by the Return Book) for one ride. Every window up to its own is
resolved afterwards (R93); where they all were, only levels are judged. Where its window alone was not: the window keeps no
pass and no hold; an interrupted window's passes are FLEX and their guests join F and U, another's passes are EXPIRED and
retire in list order; placement runs for an OPEN ride if any pass was converted; the FLEX, SLOTS and BOOK levels are judged
(BOOK after each ride's part: the model's choice, log 31); and a CLOSING ride that has no guest and no window left closes
(R26, R92, R94). -/
def Obligations.WindowResolves : Prop :=
  ∀ (d : Delivery) (r i : Nat) (s t : State), d.events = [.graceEnd i] → t = take d s (.windows r) →
    (∀ j x, j ≤ i → (t.rideBook r).windows[j]? = some x → x.resolved = true) ∧
    ((∀ j x, j ≤ i → (s.rideBook r).windows[j]? = some x → x.resolved = true) →
      (t.rideBook r).windows = (s.rideBook r).windows ∧ (t.rideBook r).f = (s.rideBook r).f ∧
      (t.rideBook r).u = (s.rideBook r).u ∧ t.book.passes = s.book.passes ∧ t.book.retired = s.book.retired ∧
      t.book.accounts = s.book.accounts ∧ t.units = s.units ∧ t.ests = s.ests) ∧
    ∀ (u : RideUnit) (e : Estimator) (w : Window) (b : RideBook) (n : Nat), s.units.find r = some u →
      s.ests.find r = some e → s.book.late = [] → (s.rideBook r).windows[i]? = some w → w.resolved = false →
      (∀ j x, j < i → (s.rideBook r).windows[j]? = some x → x.resolved = true) →
      (∀ p ∈ w.passes, s.book.passes.find p ≠ none) →
      n = (if w.interrupted then (w.passes.map fun p => ((s.book.passes.find p).map (·.remaining)).getD 0).sum else 0) →
      b = { s.rideBook r with
        windows := (s.rideBook r).windows.modify i (fun w => { w with passes := [], hold := 0, resolved := true })
        f := (s.rideBook r).f + n
        u := (s.rideBook r).u + n } →
      (t.rideBook r).windows =
        (if w.interrupted = true ∧ w.passes ≠ [] ∧ u.state = .opened ∧ 0 < b.u then b.place s.minute else b).windows ∧
      (t.rideBook r).u =
        (if w.interrupted = true ∧ w.passes ≠ [] ∧ u.state = .opened ∧ 0 < b.u then b.place s.minute else b).u ∧
      (t.rideBook r).f = b.f ∧ (t.rideBook r).flexLevel = decide (0 < (t.rideBook r).u) ∧
      (t.rideBook r).slotsLevel = t.slotsHold r ∧
      (∀ p x, s.book.passes.find p = some x → t.book.passes.find p = some
        (if p ∈ w.passes then
          if w.interrupted then { x with state := .flex, flexAt := some s.minute }
          else { x with state := .expired, retiredAt := some s.minute }
        else x)) ∧
      (w.interrupted = true → t.book.retired = s.book.retired ∧ t.book.accounts = s.book.accounts ∧
        t.book.activeCount = s.book.activeCount) ∧
      (w.interrupted = false → t.book.retired = s.book.retired ++ w.passes ∧
        t.book.activeCount = s.book.activeCount - w.passes.length ∧
        ∀ p ∈ w.passes, ∀ x a, s.book.passes.find p = some x → t.book.accounts.find x.account = some a →
          p ∉ a.active) ∧
      t.book.bookLevel = decide (44237 ≤ t.book.activeCount ∨ 22119 ≤ t.book.accounts.length) ∧
      t.units.find r = some
        (if u.state = .closing ∧ e.q = 0 ∧ (∀ x ∈ b.windows, x.resolved = true) then
          { u with state := .closed, since := s.clockNow }
        else u) ∧
      t.book.serial = s.book.serial ∧ OthersKept r s.book.rides t.book.rides ∧ OthersKept r s.units t.units ∧
      OthersKept r s.ests t.ests ∧ t.time = s.time ∧ t.poller = s.poller ∧ PortKept s t

/-! ### Passes -/

/-- Checks 1 to 8 of a RESERVE. It finds a window exactly where all of them pass: the lowest-indexed one of the ride that is
unresolved, ends after T and has room for the party. Otherwise the first check that fails gives the outcome and what the
reply carries of PARTY, T, STATE and the conflicting pass. Then what each guard code means (R179). -/
def Obligations.ReserveFindsLowestWindow : Prop :=
  (∀ (s : State) (o : ReserveOps),
    (∀ f : Found, s.reserveFind o = .ok f ↔
      s.time.day = .day ∧ ReserveShaped o ∧ ∃ (u : RideUnit) (e : Estimator) (w : Wait),
        s.units.find o.ride = some u ∧ s.ests.find o.ride = some e ∧ s.guardHolds o.guard o.operand o.ride = true ∧
        (u.state = .opened ∨ ∃ c, u.state = .held c) ∧ e.wait = some w ∧
        (∀ c n, ¬AccountRefuses s o.token o.ride c n) ∧ f.t = s.minute + max s.time.params.lead w.value ∧
        LowestWindow (s.rideBook o.ride).windows f.t o.party f.index f.window) ∧
    (s.time.day = .opening → s.reserveFind o = .error (.busy, {})) ∧
    (s.time.day = .idle ∨ s.time.day = .after → s.reserveFind o = .error (.noDay, {})) ∧
    (s.time.day = .day → ¬ReserveShaped o → s.reserveFind o = .error (.malformed, {})) ∧
    (s.time.day = .day → ReserveShaped o → s.units.find o.ride = none ∨ s.ests.find o.ride = none →
      s.reserveFind o = .error (.unknownRide, { party := some o.party })) ∧
    ∀ (u : RideUnit) (e : Estimator), s.time.day = .day → ReserveShaped o → s.units.find o.ride = some u →
      s.ests.find o.ride = some e →
      (s.guardHolds o.guard o.operand o.ride = false →
        s.reserveFind o = .error (.guardFalse, { party := some o.party, ride := some u.state })) ∧
      (s.guardHolds o.guard o.operand o.ride = true →
        ((∃ c, u.state = .down c) →
          s.reserveFind o = .error (.rideDown, { party := some o.party, ride := some u.state })) ∧
        ((∃ c, u.state = .testing c) →
          s.reserveFind o = .error (.rideNotReady, { party := some o.party, ride := some u.state })) ∧
        (u.state = .closed ∨ u.state = .closing →
          s.reserveFind o = .error (.rideClosed, { party := some o.party, ride := some u.state })) ∧
        ((u.state = .opened ∨ ∃ c, u.state = .held c) →
          (e.wait = none → s.reserveFind o = .error (.noData, { party := some o.party })) ∧
          ∀ (w : Wait) (t : Nat), e.wait = some w → t = s.minute + max s.time.params.lead w.value →
            (∀ c n, AccountRefuses s o.token o.ride c n →
              s.reserveFind o = .error (c, { party := some o.party, conflict := n })) ∧
            ((∀ c n, ¬AccountRefuses s o.token o.ride c n) →
              (∀ x ∈ (s.rideBook o.ride).windows, ¬HasRoom t o.party x) →
              s.reserveFind o = .error (.soldOut, { party := some o.party, t := some t }))))) ∧
  ∀ (s : State) (r n : Nat) (u : RideUnit) (e : Estimator) (f : FieldRecord), s.units.find r = some u →
    s.ests.find r = some e → s.poller.records.find r = some f →
    s.guardHolds 0 n r = true ∧
    (s.guardHolds 1 n r = true ↔ u.state = .opened) ∧
    (s.guardHolds 2 n r = true ↔ u.state ≠ .opened) ∧
    (s.guardHolds 3 n r = true ↔ ∃ c, u.state = .held c) ∧
    (s.guardHolds 4 n r = true ↔ ∃ c, u.state = .down c) ∧
    (s.guardHolds 5 n r = true ↔ u.state = .closed) ∧
    (s.guardHolds 6 n r = true ↔ ∃ c, u.state = .testing c) ∧
    (s.guardHolds 7 n r = true ↔ ∃ w, e.wait = some w ∧ n ≤ w.value) ∧
    (s.guardHolds 8 n r = true ↔ ∃ w, e.wait = some w ∧ w.value < n) ∧
    (s.guardHolds 9 n r = true ↔ f.link = .lost) ∧
    (s.guardHolds 10 n r = true ↔ s.time.day = .day ∧ (u.state = .opened ∨ ∃ c, u.state = .held c) ∧
      ∃ w i x, e.wait = some w ∧
        LowestWindow (s.rideBook r).windows (s.minute + max s.time.params.lead w.value) 1 i x ∧
        n ≤ x.cap - x.issued - x.hold)

/-- A RESERVE that finds a window and record space issues a pass with the pass serial. One that finds a window and no record
space is answered BOOK_FULL with PARTY and T; one that finds no window, a quote too, is answered with the outcome and the fields
of the check that fails (ReserveFindsLowestWindow); both change nothing. Record space is wanting when the serials have run out,
or the table is full with no pass retired. -/
def Obligations.ReserveIssues : Prop :=
  (∀ (tag r k p g o : Nat) (s : State) (f : Found), Offered tag (.reserve r k p g o 0) s →
    s.reserveFind { ride := r, token := k, party := p, guard := g, operand := o, flags := 0 } = .ok f →
    s.book.noSpace = false →
    ∃ t, exec (.reserve tag r k p g o) s = .next t ∧ t.book.serial = s.book.serial + 1 ∧
      t.book.activeCount = s.book.activeCount + 1 ∧
      t.book.passes.find s.book.serial = some
        { ride := r, window := f.index, account := k, party := p, remaining := p
          state := .issued, issuedAt := s.minute, firstUse := none, flexAt := none, retiredAt := none } ∧
      (∀ n, n ≠ s.book.serial → t.book.passes.find n =
        if 49152 ≤ s.book.passes.length ∧ s.book.retired.head? = some n then none else s.book.passes.find n) ∧
      t.book.retired = (if 49152 ≤ s.book.passes.length then s.book.retired.tail else s.book.retired) ∧
      t.book.accounts.find k = some (match s.book.accounts.find k with
        | none => { active := [s.book.serial], issuedToday := 1, firstSeen := s.minute }
        | some a => { a with active := a.active ++ [s.book.serial], issuedToday := min 255 (a.issuedToday + 1) }) ∧
      OthersKept k s.book.accounts t.book.accounts ∧
      (t.rideBook r).windows = (s.rideBook r).windows.modify f.index (fun w =>
        { w with issued := w.issued + p, passes := w.passes ++ [s.book.serial] }) ∧
      (t.rideBook r).f = (s.rideBook r).f ∧ (t.rideBook r).u = (s.rideBook r).u ∧
      OthersKept r s.book.rides t.book.rides ∧
      Replied (.reply tag 12 (.reserve .done r
        { pass := some s.book.serial, window := some f.index, startMin := some f.window.startMin,
          endMin := some f.window.endMin, party := some p, t := some f.t })) t ∧
      t.time = s.time ∧ t.units = s.units ∧ t.ests = s.ests ∧ t.poller = s.poller ∧ t.boards = s.boards ∧
      PortKept s.popInput t) ∧
  (∀ (tag r k p g o : Nat) (s : State) (f : Found), Offered tag (.reserve r k p g o 0) s →
    s.reserveFind { ride := r, token := k, party := p, guard := g, operand := o, flags := 0 } = .ok f →
    s.book.noSpace = true →
    exec (.reserve tag r k p g o) s = .next
      (enterReply (.reply tag 12 (.reserve .bookFull r { party := some p, t := some f.t })) s.popInput)) ∧
  (∀ (tag r k p g o : Nat) (s : State) (c : Code) (v : ReserveView),
    (Offered tag (.reserve r k p g o 0) s →
      s.reserveFind { ride := r, token := k, party := p, guard := g, operand := o, flags := 0 } = .error (c, v) →
      exec (.reserve tag r k p g o) s = .next (enterReply (.reply tag 12 (.reserve c r v)) s.popInput)) ∧
    (Offered tag (.reserve r k p g o 1) s →
      s.reserveFind { ride := r, token := k, party := p, guard := g, operand := o, flags := 1 } = .error (c, v) →
      exec (.reserveQuote tag r k p g o) s = .next (enterReply (.reply tag 12 (.reserve c r v)) s.popInput))) ∧
  ∀ b : Book, b.noSpace = true ↔ 16777216 ≤ b.serial ∨ (49152 ≤ b.passes.length ∧ b.retired = [])

/-- A RESERVE with QUOTE that finds a window is answered with it and changes nothing, whether the pass table is full or
not. -/
def Obligations.QuoteChangesNothing : Prop :=
  ∀ (tag r k p g o : Nat) (s : State) (f : Found), Offered tag (.reserve r k p g o 1) s →
    s.reserveFind { ride := r, token := k, party := p, guard := g, operand := o, flags := 1 } = .ok f →
    exec (.reserveQuote tag r k p g o) s = .next
      (enterReply (.reply tag 12 (.reserve .done r
        { window := some f.index, startMin := some f.window.startMin, endMin := some f.window.endMin,
          party := some p, t := some f.t })) s.popInput)

/-- REDEEM of an active pass within its time on a ride in service admits min(k, REMAINING) guests; the pass retires
REDEEMED when none remains; a FLEX pass takes the guests from F, and U is trimmed. An ISSUED pass past its window's GRACE_END
has the window resolved within the request, as its grace-end event does (`e` is the state after it: WindowResolves): EXPIRED
then gives TOO_LATE, and FLEX goes on to the time check and the ride check, and is admitted where they pass; the resolution
stands (R121; that no run reaches this order is the model's choice, log 43). Its replies show START and END, the pass
having been ISSUED when the request was taken (the model's reading of R125, log 14, DEDUCED). Of the reply within the time, the
statement gives the outcome, the guests admitted and REMAINING. Then what the time check and the ride check of an active pass
answer (R121 to R123), and what it means that the day has passed a minute (R110). Checks 1 to 4 of R120 are not stated here. -/
def Obligations.RedeemAdmits : Prop :=
  (∀ (tag n k : Nat) (s : State) (p : Pass) (a : Nat), Offered tag (.redeem n k) s → s.time.day = .day → 1 ≤ n →
    n ≤ 16777215 → 1 ≤ k → k ≤ 8 → s.book.passes.find n = some p →
    (p.state = .flex ∨ (p.state = .issued ∧ ∃ w, s.windowOf p = some w ∧ s.dayPassed w.graceEnd = false)) →
    s.redeemCheck p = none → a = min k p.remaining →
    ∃ (t : State) (v : RedeemView), exec (.redeem tag n k) s = .next t ∧
      t.book.passes.find n = some
        { p with
          remaining := p.remaining - a, firstUse := some (p.firstUse.getD s.minute)
          state := if p.remaining = a then .redeemed else p.state
          retiredAt := if p.remaining = a then some s.minute else p.retiredAt } ∧
      OthersKept n s.book.passes t.book.passes ∧
      t.book.retired = (if p.remaining = a then s.book.retired ++ [n] else s.book.retired) ∧
      t.book.activeCount = (if p.remaining = a then s.book.activeCount - 1 else s.book.activeCount) ∧
      t.book.serial = s.book.serial ∧
      (∀ x, s.book.accounts.find p.account = some x → t.book.accounts.find p.account = some
        (if p.remaining = a then { x with active := x.active.filter (· ≠ n) } else x)) ∧
      OthersKept p.account s.book.accounts t.book.accounts ∧
      (p.state = .flex → (t.rideBook p.ride).f = (s.rideBook p.ride).f - a ∧
        (t.rideBook p.ride).u = min (s.rideBook p.ride).u ((s.rideBook p.ride).f - a) ∧
        (t.rideBook p.ride).windows = (s.rideBook p.ride).windows) ∧
      (p.state = .issued → (t.rideBook p.ride).f = (s.rideBook p.ride).f ∧
        (t.rideBook p.ride).u = (s.rideBook p.ride).u ∧
        (t.rideBook p.ride).windows = if p.remaining = a then
          (s.rideBook p.ride).windows.modify p.window (fun w => { w with passes := w.passes.filter (· ≠ n) })
          else (s.rideBook p.ride).windows) ∧
      OthersKept p.ride s.book.rides t.book.rides ∧
      v.admitted = some a ∧ v.remaining = some (p.remaining - a) ∧
      Replied (.reply tag 13 (.redeem (if p.remaining < k then .clamped else .done) n v)) t ∧
      t.time = s.time ∧ t.units = s.units ∧ t.ests = s.ests ∧ t.poller = s.poller ∧ t.boards = s.boards ∧
      PortKept s.popInput t) ∧
  (∀ (tag n k : Nat) (s e : State) (d : Delivery) (p p1 : Pass) (w : Window) (v : RedeemView),
    Offered tag (.redeem n k) s → s.time.day = .day → 1 ≤ n → n ≤ 16777215 → 1 ≤ k → k ≤ 8 →
    s.book.passes.find n = some p → p.state = .issued → s.windowOf p = some w → s.dayPassed w.graceEnd = true →
    d.events = [.graceEnd p.window] → e = take d s.popInput (.windows p.ride) → e.book.passes.find n = some p1 →
    v = { admitted := some 0, ride := some p.ride, window := some p.window, state := some p1.state,
          remaining := some p1.remaining, firstUse := p1.firstUse, startMin := some w.startMin,
          endMin := some w.endMin } →
    (p1.state = .expired →
      exec (.redeem tag n k) s = .next (enterReply (.reply tag 13 (.redeem .tooLate n v)) e)) ∧
    (p1.state = .flex → ∀ c st, e.redeemCheck p1 = some (c, st) →
      exec (.redeem tag n k) s = .next (enterReply (.reply tag 13 (.redeem c n { v with rideState := st })) e)) ∧
    (p1.state = .flex → e.redeemCheck p1 = none → ∀ a q, a = min k p1.remaining →
      q = { p1 with
        remaining := p1.remaining - a, firstUse := some (p1.firstUse.getD s.minute)
        state := if p1.remaining = a then .redeemed else .flex
        retiredAt := if p1.remaining = a then some s.minute else p1.retiredAt } →
      ∃ t, exec (.redeem tag n k) s = .next t ∧ t.book.passes.find n = some q ∧
        OthersKept n e.book.passes t.book.passes ∧
        t.book.retired = (if p1.remaining = a then e.book.retired ++ [n] else e.book.retired) ∧
        t.book.activeCount = (if p1.remaining = a then e.book.activeCount - 1 else e.book.activeCount) ∧
        (t.rideBook p.ride).f = (e.rideBook p.ride).f - a ∧
        (t.rideBook p.ride).u = min (e.rideBook p.ride).u ((e.rideBook p.ride).f - a) ∧
        (t.rideBook p.ride).windows = (e.rideBook p.ride).windows ∧ OthersKept p.ride e.book.rides t.book.rides ∧
        Replied (.reply tag 13 (.redeem (if p1.remaining < k then .clamped else .done) n { v with
          admitted := some a, state := some q.state, remaining := some q.remaining, firstUse := q.firstUse })) t ∧
        t.time = e.time ∧ t.units = e.units ∧ t.ests = e.ests ∧ t.poller = e.poller ∧ t.boards = e.boards ∧
        PortKept s.popInput t)) ∧
  (∀ (s : State) (p : Pass) (u : RideUnit) (w : Window) (plan : Plan) (early late : Prop),
    s.units.find p.ride = some u → s.windowOf p = some w → s.time.plan = some plan →
    p.state = .issued ∨ p.state = .flex →
    (early ↔ p.state = .issued ∧ s.minute + s.time.params.gEarly < w.startMin) →
    (late ↔ p.state = .flex ∧ s.dayPassed (plan.closeMin + s.time.params.gLate) = true) →
    (early → s.redeemCheck p = some (.tooEarly, none)) ∧
    (late → s.redeemCheck p = some (.tooLate, none)) ∧
    (¬early → ¬late →
      ((∃ c, u.state = .down c) → s.redeemCheck p = some (.rideDown, some u.state)) ∧
      ((∃ c, u.state = .testing c) → s.redeemCheck p = some (.rideNotReady, some u.state)) ∧
      (u.state = .closed → s.redeemCheck p = some (.rideClosed, some u.state)) ∧
      (u.state = .opened ∨ (∃ c, u.state = .held c) ∨ u.state = .closing → s.redeemCheck p = none))) ∧
  ∀ (s : State) (x : Nat), s.dayPassed x = true ↔
    x < s.minute ∨ (s.time.closePassed = true ∧ ∃ plan, s.time.plan = some plan ∧ s.minute < plan.closeMin)

/-- VOID of an active pass that is not past its window's grace end: the pass retires VOIDED; its room returns to its window
before END, or its guests leave F, U trimmed; placement follows for an OPEN ride. An ISSUED pass past its window's GRACE_END has
the window resolved within the request, as its grace-end event does (`e` is the state after it: WindowResolves): EXPIRED then
gives BAD_STATE, and FLEX is cancelled as such; the resolution stands (R126; that no run reaches this order is the model's
choice, log 43). -/
def Obligations.VoidCancels : Prop :=
  (∀ (tag n : Nat) (s : State) (p : Pass) (b : RideBook) (runs : Bool), Offered tag (.void n) s → s.time.day = .day →
    1 ≤ n → n ≤ 16777215 → s.book.passes.find n = some p →
    (p.state = .flex ∨ (p.state = .issued ∧ ∃ w, s.windowOf p = some w ∧ s.dayPassed w.graceEnd = false)) →
    b = (if p.state = .flex then { s.rideBook p.ride with
        f := (s.rideBook p.ride).f - p.remaining
        u := min (s.rideBook p.ride).u ((s.rideBook p.ride).f - p.remaining) }
      else { s.rideBook p.ride with
        windows := (s.rideBook p.ride).windows.modify p.window fun w =>
          { w with
            issued := if s.minute < w.endMin then w.issued - p.remaining else w.issued
            passes := w.passes.filter (· ≠ n) } }) →
    runs = decide ((s.units.find p.ride).map (·.state) = some .opened ∧ 0 < b.u) →
    ∃ (t : State) (v : VoidView), exec (.void tag n) s = .next t ∧
      t.book.passes.find n = some { p with state := .voided, retiredAt := some s.minute } ∧
      OthersKept n s.book.passes t.book.passes ∧ t.book.retired = s.book.retired ++ [n] ∧
      t.book.activeCount = s.book.activeCount - 1 ∧ t.book.serial = s.book.serial ∧
      (∀ a, s.book.accounts.find p.account = some a →
        t.book.accounts.find p.account = some { a with active := a.active.filter (· ≠ n) }) ∧
      OthersKept p.account s.book.accounts t.book.accounts ∧
      (t.rideBook p.ride).windows = (if runs then b.place s.minute else b).windows ∧
      (t.rideBook p.ride).u = (if runs then b.place s.minute else b).u ∧ (t.rideBook p.ride).f = b.f ∧
      OthersKept p.ride s.book.rides t.book.rides ∧
      v = { ride := some p.ride, window := some p.window, state := some .voided, remaining := some p.remaining
            returned := if p.state = .flex then none else (s.windowOf p).map fun w =>
              if s.minute < w.endMin then p.remaining else 0 } ∧
      Replied (.reply tag 14 (.void .done n v)) t ∧
      t.time = s.time ∧ t.units = s.units ∧ t.ests = s.ests ∧ t.poller = s.poller ∧ t.boards = s.boards ∧
      PortKept s.popInput t) ∧
  ∀ (tag n : Nat) (s e : State) (d : Delivery) (p p1 : Pass) (w : Window) (b : RideBook) (runs : Bool),
    Offered tag (.void n) s → s.time.day = .day → 1 ≤ n → n ≤ 16777215 → s.book.passes.find n = some p →
    p.state = .issued → s.windowOf p = some w → s.dayPassed w.graceEnd = true → d.events = [.graceEnd p.window] →
    e = take d s.popInput (.windows p.ride) → e.book.passes.find n = some p1 →
    b = { e.rideBook p.ride with
      f := (e.rideBook p.ride).f - p1.remaining
      u := min (e.rideBook p.ride).u ((e.rideBook p.ride).f - p1.remaining) } →
    runs = decide ((e.units.find p.ride).map (·.state) = some .opened ∧ 0 < b.u) →
    (p1.state = .expired → exec (.void tag n) s = .next (enterReply (.reply tag 14 (.void .badState n
      { ride := some p.ride, window := some p.window, state := some .expired, remaining := some p1.remaining })) e)) ∧
    (p1.state = .flex → ∃ t, exec (.void tag n) s = .next t ∧
      t.book.passes.find n = some { p1 with state := .voided, retiredAt := some s.minute } ∧
      OthersKept n e.book.passes t.book.passes ∧ t.book.retired = e.book.retired ++ [n] ∧
      t.book.activeCount = e.book.activeCount - 1 ∧
      (t.rideBook p.ride).windows = (if runs then b.place s.minute else b).windows ∧
      (t.rideBook p.ride).u = (if runs then b.place s.minute else b).u ∧ (t.rideBook p.ride).f = b.f ∧
      OthersKept p.ride e.book.rides t.book.rides ∧
      Replied (.reply tag 14 (.void .done n
        { ride := some p.ride, window := some p.window, state := some .voided, remaining := some p1.remaining })) t ∧
      t.time = e.time ∧ t.units = e.units ∧ t.ests = e.ests ∧ t.poller = e.poller ∧ t.boards = e.boards ∧
      PortKept s.popInput t)

/-! ### Queries and the gate -/

/-- A query is answered in every day state, and changes nothing but that its frame is taken and its reply enters. That RIDEINFO
and STATUS read all blocks at one moment is the model's choice (log 44, DESIGN CHOICE), and so are the fields of a NOTEINFO of
an unknown class (log 37, DESIGN CHOICE). -/
def Obligations.QueriesChangeNothing : Prop :=
  ∀ (i : Instr) (tag : Nat) (rq : Request) (f : State → ReplyBody) (s : State), IsQuery i tag rq f →
    Offered tag rq s → exec i s = .next (enterReply (.reply tag (requestClass rq) (f s.popInput)) s.popInput)

/-- During OPENING the request of a row of R8 that the gate answers is answered so, BUSY or for OPENDAY and CONFPARK BAD_STATE,
with its presence-flagged fields absent, and changes nothing, whatever its own checks would give; every other request is passed
to its owner, and none is both. The counts in the reply to a CONFNOTE are the model's choice (log 45, DESIGN CHOICE). -/
def Obligations.GateAnswers : Prop :=
  (∀ (tag : Nat) (rq : Request) (s : State), Offered tag rq s → s.time.day = .opening →
    (∀ body, GateRow s rq body → portStep tag rq s = enterReply (.reply tag (requestClass rq) body) s.popInput) ∧
    (GatePasses rq → portStep tag rq s = match serve tag rq s.popInput with
      | (t, some body) => enterReply (.reply tag (requestClass rq) body) t
      | (t, none) => t)) ∧
  (∀ (i : Instr) (tag : Nat) (rq : Request) (s : State), GatedRow i tag rq →
    exec i s = .next (portStep tag rq s) ∧ ∃ body, GateRow s rq body) ∧
  ∀ (rq : Request) (s : State), (GatePasses rq ∧ ∀ body, ¬GateRow s rq body) ∨
    (¬GatePasses rq ∧ ∃ body, GateRow s rq body)

/-! ### Boards -/

/-- CONFBOARD, taken: a board is created, takes another ride, or takes another KIND with fresh lines, keeping its presence;
a change of KIND abandons its frame. -/
def Obligations.ConfboardSets : Prop :=
  ∀ (tag a : Nat) (kind ride : Option Nat) (k : Kind) (s : State),
    Offered tag (.confboard a false kind ride false) s → s.time.day ≠ .opening → 1 ≤ a → a ≤ 64 →
    (∃ r u, kind = some 0 ∧ ride = some r ∧ k = .ride r ∧ s.units.find r = some u) ∨
      (kind = some 1 ∧ ride = none ∧ k = .hub Pane.fresh Pane.fresh) →
    ∃ (t : State) (b' : Board), exec (.confboard tag a kind ride) s = .next t ∧
      t.boards.table.find a = some b' ∧
      (match s.boards.table.find a with
        | none => t.boards.line = s.boards.line ∧ b' =
            { kind := k, lines := List.replicate k.lineCount Line.fresh, presence := .unknown, misses := 0
              lastStatus := none, level := false }
        | some b =>
          match b.kind, k with
          | .ride _, .ride r => b' = { b with kind := .ride r } ∧ t.boards.line = s.boards.line
          | .hub _ _, .hub _ _ => b' = b ∧ t.boards.line = s.boards.line
          | _, _ => b' = { b with kind := k, lines := List.replicate k.lineCount Line.fresh } ∧
              t.boards.line = (match s.boards.line with
                | .outstanding x n => if x = a then .reserved else .outstanding x n
                | l => l)) ∧
      OthersKept a s.boards.table t.boards.table ∧ t.boards.pass = s.boards.pass ∧ t.boards.due = s.boards.due ∧
      t.time = s.time ∧ t.units = s.units ∧ t.ests = s.ests ∧ t.poller = s.poller ∧ t.book = s.book ∧
      t.notices = s.notices ∧ PortKept s.popInput t ∧
      Replied (.reply tag 18 (.confboard .done (some (a, b'.kind)))) t

/-- CONFBOARD with REMOVE for a configured address: the record ceases to exist, its outstanding frame is abandoned, and its
BOARD level, if set, falls; a pass that stands at it goes on above its address, whatever is created there. -/
def Obligations.ConfboardRemoves : Prop :=
  ∀ (tag a : Nat) (s : State) (b : Board), Offered tag (.confboard a true none none false) s →
    s.time.day ≠ .opening → 1 ≤ a → a ≤ 64 → s.boards.table.find a = some b →
    ∃ t, exec (.confboardRemove tag a) s = .next t ∧ t.boards.table.find a = none ∧
      OthersKept a s.boards.table t.boards.table ∧
      t.boards.line = (match s.boards.line with
        | .outstanding x n => if x = a then .reserved else .outstanding x n
        | l => l) ∧
      (b.level = true → (t.slot ⟨.board, a⟩).image = false) ∧ (b.level = false → t.notices = s.notices) ∧
      t.boards.pass = (match s.boards.pass with
        | some (x, n) => if x = a then some (a, 16) else some (x, n)
        | none => none) ∧
      (∀ later : Table Board, nextLine later a 16 = none ∨ ∃ x, a < x ∧ nextLine later a 16 = some (x, 1)) ∧
      t.time = s.time ∧ t.units = s.units ∧ t.ests = s.ests ∧ t.poller = s.poller ∧ t.book = s.book ∧
      PortKept s.popInput t ∧ Replied (.reply tag 18 (.confboard .done none)) t

/-- CONFPANE, taken: the pane is replaced, ROWS and PAGE_PASSES clamped, on page 0; the other pane stands. -/
def Obligations.ConfpaneReplaces : Prop :=
  ∀ (tag a n : Nat) (list : List Nat) (rows pp fit : Nat) (skip : Bool) (p q : Pane) (b : Board) (s : State)
    (new : Pane), Offered tag (.confpane a n list rows pp skip fit false) s → s.time.day ≠ .opening →
    (n = 1 ∨ n = 2) → fit ≤ 1 → list.length ≤ 24 → distinct list = true → s.boards.table.find a = some b →
    b.kind = .hub p q → (∀ r ∈ list, s.units.find r ≠ none) →
    new = { list := list, rows := max 1 (min 8 rows), pagePasses := max 1 (min 255 pp), skipClosed := skip,
            fit := if fit = 0 then .fullFirst else .shortFirst, page := 0, pageCount := 0 } →
    ∃ t, exec (.confpane tag a n list rows pp skip fit) s = .next t ∧
      t.boards.table.find a = some { b with kind := if n = 1 then .hub new q else .hub p new } ∧
      OthersKept a s.boards.table t.boards.table ∧ t.boards.line = s.boards.line ∧ t.boards.pass = s.boards.pass ∧
      t.time = s.time ∧ t.units = s.units ∧ t.ests = s.ests ∧ t.poller = s.poller ∧ t.book = s.book ∧
      t.notices = s.notices ∧ PortKept s.popInput t ∧
      Replied (.reply tag 19 (.confpane (if new.rows = rows ∧ new.pagePasses = pp then .done else .clamped) a n
        (some new))) t

/-- BOARDTEXT in every day state: SET puts the override, with its duration clamped and its blink; RELEASE takes it away;
no other line is touched. -/
def Obligations.BoardtextTakes : Prop :=
  ∀ (tag a n : Nat) (s : State) (b : Board) (l : Line), s.boards.table.find a = some b →
    1 ≤ n → b.lines[n - 1]? = some l → n ≤ b.kind.lineCount →
    (∀ (text : Text) (d : Nat) (blink : Bool), Offered tag (.boardtext a n 0 text d blink false) s →
      text.length ≤ 20 → printable text = true →
      ∃ t, exec (.boardtextSet tag a n text d blink) s = .next t ∧
        Replied (.reply tag 20 (.boardtext (if 1440 < d then .clamped else .done) a n (some
          { text := text ++ List.replicate (20 - text.length) 0x20#8
            left := if d = 0 then .untilReleased else .minutes (min 1440 d) }))) t ∧
        t.boards.table.find a = some
          { b with
            lines := b.lines.set (n - 1)
              { l with
                override := some
                  { text := text ++ List.replicate (20 - text.length) 0x20#8
                    left := if d = 0 then .untilReleased else .minutes (min 1440 d) }
                blink := if blink then s.time.params.blinkPasses else l.blink } } ∧
        OthersKept a s.boards.table t.boards.table ∧ t.boards.line = s.boards.line ∧ t.time = s.time ∧
        t.units = s.units ∧ t.ests = s.ests ∧ t.poller = s.poller ∧ t.book = s.book ∧ t.notices = s.notices ∧
        PortKept s.popInput t) ∧
    (Offered tag (.boardtext a n 1 [] 0 false false) s →
      ∃ t, exec (.boardtextRelease tag a n) s = .next t ∧
        t.boards.table.find a = some { b with lines := b.lines.set (n - 1) { l with override := none } } ∧
        OthersKept a s.boards.table t.boards.table ∧ t.boards.line = s.boards.line ∧ t.time = s.time ∧
        t.units = s.units ∧ t.ests = s.ests ∧ t.poller = s.poller ∧ t.book = s.book ∧ t.notices = s.notices ∧
        PortKept s.popInput t ∧ Replied (.reply tag 20 (.boardtext .done a n none)) t)

/-! ### Notices -/

/-- CONFNOTE. A list of at most 64 sound entries is taken: the entries are applied in list order, each to the slots it covers
in the order of R158, a slot at a time, and its edge action to the class; the reply gives the number of entries and the length
of the send list. Any other list is refused MALFORMED and changes nothing; the counts in that reply are the model's choice (log
45, DESIGN CHOICE). `Masks` says what one mask action does, a CLEAR that
uncovers a record not yet sent among them. Of one entry: the mask of each slot covered, and the edge setting of the class; no
slot's pending flag or image moves, and no other slot. Then what a report does under those settings (R159 to R161): an event
report latches; a level report that equals the image changes nothing, and one that does not gives the image the new level and
latches, unless it is a fall whose class's edge setting is RISE. `Latches` says what a latch is. -/
def Obligations.ConfnoteApplies : Prop :=
  (∀ (tag : Nat) (es : List NoteEntry) (s : State), Offered tag (.confnote es) s → s.time.day ≠ .opening →
    (es.length ≤ 64 → (∀ e ∈ es, noteEntrySound e = true) → ∃ t, t = es.foldl applyNote s.popInput ∧
      exec (.confnote tag es) s = .next
        (enterReply (.reply tag 22 (.confnote .done es.length t.notices.sendList.length)) t)) ∧
    (64 < es.length ∨ (∃ e ∈ es, noteEntrySound e = false) →
      exec (.confnote tag es) s = .next
        (enterReply (.reply tag 22 (.confnote .malformed 0 s.notices.sendList.length)) s.popInput))) ∧
  (∀ e : NoteEntry, noteEntrySound e = true ↔ NamesSlots e.cls e.src ∧ e.mask ≤ 2 ∧ e.edge ≤ 2 ∧
    (e.edge = 2 ∨ ∃ c : NoteClass, c.number = e.cls ∧ c.isLevel = true)) ∧
  (∀ (e : NoteEntry) (s : State), ∃ s1,
    s1 = { s with notices := { s.notices with edges := s1.notices.edges } } ∧
    (∀ c : NoteClass, c.isLevel = true → s1.notices.edges.of c =
      if c.number = e.cls ∧ e.edge ≤ 1 then (if e.edge = 0 then .rise else .both) else s.notices.edges.of c) ∧
    applyNote s e = (coveredSlots e.cls e.src).foldl (maskAction e.mask) s1) ∧
  (∀ cls src : Nat, (∀ id, id ∈ coveredSlots cls src ↔ Covers cls src id) ∧
    (coveredSlots cls src).Pairwise fun x y => x.cls.number < y.cls.number ∨ (x.cls = y.cls ∧ x.src < y.src)) ∧
  (∀ (action : Nat) (id : SlotId) (s : State), Masks action id s (maskAction action s id)) ∧
  (∀ (tag : Nat) (e : NoteEntry) (s : State), Offered tag (.confnote [e]) s → s.time.day ≠ .opening →
    noteEntrySound e = true →
    ∃ t, exec (.confnote tag [e]) s = .next t ∧
      (∀ id, (t.slot id).pending = (s.slot id).pending ∧ (t.slot id).image = (s.slot id).image ∧
        (t.slot id).mask =
          (if id ∈ coveredSlots e.cls e.src then
            (if e.mask = 0 then true else if e.mask = 1 then false else (s.slot id).mask)
          else (s.slot id).mask)) ∧
      (∀ c : NoteClass, c.isLevel = true → t.notices.edges.of c =
        if c.number = e.cls ∧ e.edge ≤ 1 then (if e.edge = 0 then .rise else .both) else s.notices.edges.of c) ∧
      (e.mask = 0 → ∀ id ∈ coveredSlots e.cls e.src, id ∉ t.notices.sendList) ∧
      t.time = s.time ∧ t.units = s.units ∧ t.ests = s.ests ∧ t.poller = s.poller ∧ t.book = s.book ∧
      t.boards = s.boards ∧ PortKept s.popInput t ∧
      Replied (.reply tag 22 (.confnote .done 1 t.notices.sendList.length)) t) ∧
  (∀ (cls : NoteClass) (src detail : Nat) (s : State), cls.isLevel = false →
    Latches ⟨cls, src⟩ false detail s (reportEvent cls src detail s)) ∧
  ∀ (cls : NoteClass) (src detail : Nat) (level : Bool) (s : State), cls.isLevel = true →
    ((s.slot ⟨cls, src⟩).image = level → reportLevel cls src level detail s = s) ∧
    ((s.slot ⟨cls, src⟩).image ≠ level →
      ∃ s1, SlotMoved ⟨cls, src⟩ { s.slot ⟨cls, src⟩ with image := level } s.notices.sendList s s1 ∧
        (level = true ∨ s.notices.edges.of cls = .both →
          Latches ⟨cls, src⟩ level detail s1 (reportLevel cls src level detail s)) ∧
        (level = false → s.notices.edges.of cls = .rise → reportLevel cls src level detail s = s1))

/-- CLEARNOTE in every day state. With a list of at most 64 entries that name slots, the slots covered by any of them are no
longer pending and leave the send list, the others keep their places on it, and nothing else of any slot moves; the reply
gives the number of pending flags cleared. Any other list is refused MALFORMED and changes nothing; the count 0 in that reply
is the model's choice (log 45, DESIGN CHOICE). -/
def Obligations.ClearnoteClears : Prop :=
  (∀ (tag : Nat) (es : List ClearEntry) (s : State) (covered : List SlotId), Offered tag (.clearnote es) s →
    (∀ id, id ∈ covered ↔ ∃ e ∈ es, Covers e.cls e.src id) → covered.Nodup →
    (es.length ≤ 64 → (∀ e ∈ es, noteTarget e.cls e.src = true) →
      ∃ t, exec (.clearnote tag es) s = .next t ∧
        (∀ id, t.slot id =
          if id ∈ covered ∧ (s.slot id).pending.isSome = true then { s.slot id with pending := none, sent := false }
          else s.slot id) ∧
        t.notices.sendList =
          s.notices.sendList.filter (fun id => ¬(id ∈ covered ∧ (s.slot id).pending.isSome = true)) ∧
        t.notices.edges = s.notices.edges ∧
        t.time = s.time ∧ t.units = s.units ∧ t.ests = s.ests ∧ t.poller = s.poller ∧ t.book = s.book ∧
        t.boards = s.boards ∧ PortKept s.popInput t ∧
        Replied (.reply tag 23 (.clearnote .done (covered.countP fun id => (s.slot id).pending.isSome))) t) ∧
    (64 < es.length ∨ (∃ e ∈ es, noteTarget e.cls e.src = false) →
      exec (.clearnote tag es) s = .next (enterReply (.reply tag 23 (.clearnote .malformed 0)) s.popInput))) ∧
  ∀ cls src : Nat, noteTarget cls src = true ↔ NamesSlots cls src

/-! ### The operations line -/

/-- A whole frame received from HUNT joins the end of the input queue, or is discarded as an overrun when the queue is
full; every tag, class and parameter run a frame can carry. -/
def Obligations.FrameRoundTrip : Prop :=
  ∀ (tag cls : Nat) (params : List Byte) (s : State), tag < 256 → cls < 256 → params.length ≤ 998 →
    s.port.receiver = .hunt →
    ∃ t, exec (.frameReceived (opsFrame tag cls params)) s = .next t ∧ t.port.receiver = .hunt ∧
      (s.port.input.length < 8 → t = { s with port :=
        { s.port with input := s.port.input ++ [{ tag := tag, cls := cls, params := params }] } }) ∧
      (8 ≤ s.port.input.length → t.port.input = s.port.input ∧ t.port.overruns = min 65535 (s.port.overruns + 1) ∧
        (t.slot ⟨.overrun, 0⟩).pending.isSome = true ∧ t.time = s.time ∧ t.units = s.units ∧ t.ests = s.ests ∧
        t.poller = s.poller ∧ t.book = s.book ∧ t.boards = s.boards)

/-- The receiver's other ends: a START begins a frame; a LENGTH outside 2..1,000 and a gap end one; a frame whose check is
wrong is discarded; each counted, and nothing else of the part moves. That RECEIVE_TIMEOUT stands for the gap is the model's choice (log 6). -/
def Obligations.ReceiverDiscards : Prop :=
  (∀ s : State, s.port.receiver = .hunt →
    exec .frameBegins s = .next { s with port := { s.port with receiver := .header [] } }) ∧
  (∀ (hi lo : Byte) (s : State), s.port.receiver = .header [] →
    hi.toNat * 256 + lo.toNat < 2 ∨ 1000 < hi.toNat * 256 + lo.toNat →
    exec (.lengthError hi lo) s = .next { s with port :=
      { s.port with receiver := .hunt, crcErrors := min 65535 (s.port.crcErrors + 1) } }) ∧
  (∀ s : State, s.port.receiver ≠ .hunt →
    exec .receiveTimeout s = .next { s with port :=
      { s.port with receiver := .hunt, timeouts := min 65535 (s.port.timeouts + 1) } }) ∧
  (∀ (length : Nat) (body : List Byte) (hi lo : Byte) (s : State), s.port.receiver = .check length body [] →
    crcBytes (putNum 2 length ++ body) ≠ [hi, lo] →
    exec (.frameReceived [hi, lo]) s = .next { s with port :=
      { s.port with receiver := .hunt, crcErrors := min 65535 (s.port.crcErrors + 1) } })

/-- A frame of a CLASS outside 1..26 is taken and answered MALFORMED alone, with CLASS 0x80; nothing else changes (that the
row stands for the reception too when no frame is queued is the model's choice, log 5). -/
def Obligations.UnknownClassAnswered : Prop :=
  ∀ (tag cls : Nat) (s : State), s.mayTake = true → cls = 0 ∨ 26 < cls →
    (s.port.input = [] ∨ ∃ f fs, s.port.input = f :: fs ∧ f.tag = tag ∧ f.cls = cls) →
    exec (.unknownClass tag cls) s = .next (enterReply (.reply tag 0 .bare) s.popInput) ∧
    (Record.reply tag 0 .bare).bytes = opsFrame tag 0x80 [4#8]

/-- A record begins to be sent, and the place it frees goes to a reply or a notice that waits for it, the
grant marker recording the winner of a contested one; the model keeps the record being sent in `sending` (its choice,
log 20). -/
def Obligations.RecordSent : Prop :=
  ∀ (s : State) (rcd : Record) (rest : List Record), s.restartDue = none → s.port.output = rcd :: rest →
    ∃ t, exec .outputRecordSend s = .next t ∧ t.port.sending = some rcd ∧
      (s.port.waiting = [] → s.notices.sendList = [] →
        t = { s with port := { s.port with output := rest, sending := some rcd } }) ∧
      (∀ w ws, s.port.waiting = w :: ws → rest.length < 32 → s.notices.sendList = [] ∨ s.port.noticesLast = true →
        t.port.output = rest ++ [w] ∧ t.port.waiting = ws ∧ t.notices = s.notices ∧
        t.port.noticesLast = if s.notices.sendList = [] then s.port.noticesLast else false) ∧
      (∀ id ids l, s.notices.sendList = id :: ids → (s.slot id).pending = some l → rest.length < 32 →
        s.port.waiting = [] ∨ s.port.noticesLast = false →
        t.port.output = rest ++ [.notice id l] ∧ t.port.waiting = s.port.waiting ∧ t.notices.sendList = ids ∧
        t.slot id = { s.slot id with sent := true } ∧
        t.port.noticesLast = if s.port.waiting = [] then s.port.noticesLast else true) ∧
      t.time = s.time ∧ t.units = s.units ∧ t.ests = s.ests ∧ t.poller = s.poller ∧ t.book = s.book ∧
      t.boards = s.boards ∧ t.port.input = s.port.input

/-- The places of the output queue are granted by R176: an uncontested place to the one party that waits, without moving
the marker; a contested one to the party that did not win the last, the marker then recording the winner; after power-on
and either restart the marker records the notices. The grant rows stand for grants that OUTPUT_RECORD_SEND and the forming of
a record also make (log 9, DEDUCED), and a restart falls due once its reply is the record in `sending` (log 20): both the
model's. -/
def Obligations.PlacesAreArbitrated : Prop :=
  State.reset.port.noticesLast = true ∧
  (∀ s t : State, s.restartDue ≠ none → exec .restartTakesEffect s = .next t → t.port.noticesLast = true) ∧
  (∀ (s t : State) (rcd : Record) (rest : List Record), s.restartDue = none → s.port.output = rcd :: rest →
    exec .outputRecordSend s = .next t →
    t.port.noticesLast = if rest.length < 32 ∧ s.port.waiting ≠ [] ∧ s.notices.sendList ≠ [] then !s.port.noticesLast
      else s.port.noticesLast) ∧
  ∀ (s : State) (w : Record) (ws : List Record) (id : SlotId) (ids : List SlotId) (l : Latched),
    s.port.output.length < 32 →
    (s.port.waiting = w :: ws → s.notices.sendList = [] →
      exec .replyGranted s = .next { s with port :=
        { s.port with output := s.port.output ++ [w], waiting := ws } }) ∧
    (s.port.waiting = w :: ws → s.notices.sendList ≠ [] → s.port.noticesLast = true →
      exec .replyGranted s = .next { s with port :=
        { s.port with output := s.port.output ++ [w], waiting := ws, noticesLast := false } }) ∧
    (s.notices.sendList = id :: ids → (s.slot id).pending = some l →
      s.port.waiting = [] ∨ s.port.noticesLast = false →
      ∃ t, exec .noticeGranted s = .next t ∧
        t.port = { s.port with output := s.port.output ++ [.notice id l],
                               noticesLast := if s.port.waiting = [] then s.port.noticesLast else true } ∧
        t.notices.sendList = ids ∧ t.slot id = { s.slot id with sent := true } ∧
        (∀ j, j ≠ id → t.slot j = s.slot j) ∧ t.notices.edges = s.notices.edges ∧
        t.time = s.time ∧ t.units = s.units ∧ t.ests = s.ests ∧ t.poller = s.poller ∧ t.book = s.book ∧
        t.boards = s.boards)

/-! ### Restarts -/

/-- A RESTART is answered DONE with CLOCK, clock state and day state as they stand, in every day state, and becomes
pending. -/
def Obligations.RestartAnswered : Prop :=
  ∀ (tag : Nat) (s : State),
    (Offered tag (.restart 0) s → exec (.restartWarm tag) s = .next
      (enterReply (.reply tag 26 (.restart .done 0 s.time.clock s.time.clockState s.time.day))
        { s.popInput with port := { s.popInput.port with restartPending := some .warm } })) ∧
    (Offered tag (.restart 1) s → exec (.restartCold tag) s = .next
      (enterReply (.reply tag 26 (.restart .done 1 s.time.clock s.time.clockState s.time.day))
        { s.popInput with port := { s.popInput.port with restartPending := some .cold } }))

/-- A pending restart takes effect once its reply is the record last sent (log 20): COLD as power-on; WARM keeps the
configuration, the day and the book, and takes each block's WARM values. An idle field line stays idle, and any other is
reserved. A board keeps its KIND and its panes but for PAGE and PAGE_COUNT, which are set to 0. The new pass starts at once
where no line frame was outstanding, advancing those panes, and is owed until the abandoned window closes where one was. -/
def Obligations.RestartTakesEffect : Prop :=
  ∀ (s : State) (tag kind clock : Nat) (cs : ClockState) (d : DayState),
    s.port.sending = some (.reply tag 26 (.restart .done kind clock cs d)) → s.notices.slots.wf →
    (s.port.restartPending = some .cold → exec .restartTakesEffect s = exec .powerOn s) ∧
    (s.port.restartPending = some .warm →
      ∃ t, exec .restartTakesEffect s = .next t ∧
        t.time = { s.time with erase := s.time.erase.map fun _ => 0 } ∧
        (∀ r, t.units.find r = (s.units.find r).map fun u => { u with stall := 0, fault := 0, clear := 0 }) ∧
        (∀ r, t.poller.records.find r =
          (s.poller.records.find r).map fun f => { f with misses := 0, baseValid := false }) ∧
        t.poller.last = 0 ∧ (s.poller.line = .idle → t.poller.line = .idle) ∧
        (s.poller.line ≠ .idle → t.poller.line = .reserved) ∧
        (∀ r, t.ests.find r = (s.ests.find r).map fun e => { e with eligible := false }) ∧
        t.book = s.book ∧
        (∀ a b, s.boards.table.find a = some b → ∃ b', t.boards.table.find a = some b' ∧ b'.presence = .unknown ∧
          b'.misses = 0 ∧ b'.lastStatus = b.lastStatus ∧ b'.level = b.level ∧
          b'.lines = b.lines.map (fun l => { l with blink := 0 }) ∧
          ∀ k, k = (match b.kind with
              | .ride r => .ride r
              | .hub p q => .hub { p with page := 0, pageCount := 0 } { q with page := 0, pageCount := 0 }) →
            ((∃ x n, s.boards.line = .outstanding x n) → b'.kind = k) ∧
            ((¬∃ x n, s.boards.line = .outstanding x n) → b'.kind = k.advance t.units)) ∧
        (∀ a, s.boards.table.find a = none → t.boards.table.find a = none) ∧
        t.boards.due = false ∧ t.boards.timer = 0 ∧
        (∀ a n, s.boards.line = .outstanding a n → t.boards.line = .reserved ∧ t.boards.pass = none ∧
          t.boards.startOwed = true) ∧
        ((¬∃ a n, s.boards.line = .outstanding a n) → t.boards.line = s.boards.line ∧ t.boards.startOwed = false ∧
          t.boards.pass = if s.boards.table.isEmpty then none else some (0, 0)) ∧
        t.boards.sent = s.boards.sent ∧ t.poller.sent = s.poller.sent ∧
        (∀ id, t.slot id = { s.slot id with pending := none, sent := false }) ∧
        t.notices.edges = s.notices.edges ∧ t.notices.sendList = [] ∧ t.port = Port.reset)

/-! ### Thresholds of a ride -/

/-- The thresholds of a ride. STALL_TIMER_EXPIRY: an OPEN ride at its STALL_TIME goes HELD (STALL) and the STALL level is up.
HELD_TOO_LONG: an AUTO ride held for DOWN_AFTER goes DOWN (HELD_TOO_LONG) and the STALL level is down. CODE_RISE and
CODE_FALL: the CODE level moves when its timer has run, and with AUTO set the ride goes DOWN (CODE), or from DOWN to TESTING
(FROM_DOWN). Each row acts so wherever its condition holds, also outside the tick or report that reached it (the model's
reading, log 1, DEDUCED). Last, what a second tick does to a ride: nothing with its LINK not UP; else the latest code counts
the fault or the clear timer (`secondOfCode`) and then an OPEN ride its stall timer (`secondOfStall`), each threshold acting in
the second that reaches it. There a timer is judged only at a tick that counts it (log 16, DEDUCED), and the fault timer goes on
to a CODE_PERSIST raised while the level is up (log 38, DESIGN CHOICE). -/
def Obligations.RideThresholds : Prop :=
  ∀ (r : Nat) (s : State) (u : RideUnit) (e : Estimator), s.units.find r = some u → s.ests.find r = some e →
    (u.state = .opened → u.config.stallTime ≤ u.stall →
      ∃ t, exec (.stallTimerExpiry r) s = .next t ∧
        t.units.find r = some { u with state := .held .stall, since := s.clockNow } ∧
        (t.slot ⟨.stall, r⟩).image = true ∧ OthersKept r s.units t.units ∧ t.time = s.time ∧ t.poller = s.poller ∧
        PassesKept s t ∧ PortKept s t) ∧
    (∀ c, u.state = .held c → u.config.auto = true → u.config.downAfter ≤ e.heldMin →
      ∃ t, exec (.heldTooLong r) s = .next t ∧
        t.units.find r = some { u with state := .down .heldTooLong, since := s.clockNow } ∧
        (c = .stall → (t.slot ⟨.stall, r⟩).image = false) ∧ OthersKept r s.units t.units ∧ t.time = s.time ∧
        t.poller = s.poller ∧ PassesKept s t ∧ PortKept s t) ∧
    (u.codeLevel = false → u.config.codePersist ≤ u.fault →
      ∃ t, exec (.codeRise r) s = .next t ∧
        t.units.find r = some
          (if u.config.auto = true ∧ u.state ≠ .closed ∧ u.state.isDown = false then
            { u with codeLevel := true, state := .down .code, since := s.clockNow }
          else { u with codeLevel := true }) ∧
        (t.slot ⟨.code, r⟩).image = true ∧ OthersKept r s.units t.units ∧ t.time = s.time ∧ t.poller = s.poller ∧
        PassesKept s t ∧ PortKept s t) ∧
    (u.codeLevel = true → u.config.clearPersist ≤ u.clear →
      ∃ t, exec (.codeFall r) s = .next t ∧
        t.units.find r = some
          (if u.config.auto = true ∧ u.state.isDown = true then
            { u with
              codeLevel := false, clear := 0, state := .testing .fromDown, since := s.clockNow
              testDispatches := 0, testMinutes := 0 }
          else { u with codeLevel := false, clear := 0 }) ∧
        (t.slot ⟨.code, r⟩).image = false ∧ OthersKept r s.units t.units ∧ t.time = s.time ∧ t.poller = s.poller ∧
        PassesKept s t ∧ PortKept s t) ∧
    ∀ (d : Delivery) (f : FieldRecord), s.poller.records.find r = some f →
      (f.link ≠ .up → take d s (.second r) = s) ∧
      (f.link = .up → ∀ v w t, v = secondOfCode s.clockNow f.lastCode u → w = secondOfStall s.clockNow v →
        t = take d s (.second r) → t.units.find r = some w ∧
          (v.codeLevel ≠ u.codeLevel → (t.slot ⟨.code, r⟩).image = v.codeLevel) ∧
          (v.codeLevel = u.codeLevel → (t.slot ⟨.code, r⟩).image = (s.slot ⟨.code, r⟩).image) ∧
          ((w.state = .held .stall ↔ u.state = .held .stall) → (t.slot ⟨.stall, r⟩).image = (s.slot ⟨.stall, r⟩).image) ∧
          (w.state = .held .stall → u.state ≠ .held .stall → (t.slot ⟨.stall, r⟩).image = true) ∧
          (w.state ≠ .held .stall → u.state = .held .stall → (t.slot ⟨.stall, r⟩).image = false) ∧
          OthersKept r s.units t.units ∧ OthersKept r s.ests t.ests ∧ t.time = s.time ∧ t.poller = s.poller ∧
          PassesKept s t ∧ PortKept s t)

/-- TEST_COMPLETE: a ride whose test counts are at their thresholds leaves TESTING for OPEN, or after park close for
CLOSING, and through it for CLOSED when the close check holds. The check is made after each report, of any kind, and each
minute tick, not at the entry: with nothing counted yet the command changes nothing (the model's reading, log 10), and a
report that counts no dispatch ends a test whose thresholds are met. The minute tick adds one to TEST_MINUTES of a TESTING
ride, and a report its dispatches to the test count, each before the check; another ride's counts stand. -/
def Obligations.TestCompletes : Prop :=
  (∀ (r : Nat) (s : State) (u : RideUnit) (e : Estimator) (c : TestCause), s.units.find r = some u →
    s.ests.find r = some e → u.state = .testing c → u.config.testDispatches ≤ u.testDispatches →
    u.config.testMinutes ≤ u.testMinutes →
    (0 < u.testDispatches ∨ 0 < u.testMinutes → ∃ t, exec (.testComplete r) s = .next t ∧
      t.units.find r = some
        (if s.time.closePassed = false then { u with state := .opened, since := s.clockNow, stall := 0 }
        else { u with state := if e.q = 0 ∧ s.allResolved r = true then .closed else .closing, since := s.clockNow }) ∧
      OthersKept r s.units t.units ∧ t.time = s.time ∧ t.poller = s.poller ∧ PassesKept s t ∧ PortKept s t) ∧
    (u.testDispatches = 0 → u.testMinutes = 0 → exec (.testComplete r) s = .next s) ∧
    ∀ code, (unitReport r code none s).units.find r = some
      (if s.time.closePassed = false then { u.takeCode code with state := .opened, since := s.clockNow, stall := 0 }
      else { u.takeCode code with
        state := if e.q = 0 ∧ s.allResolved r = true then .closed else .closing, since := s.clockNow })) ∧
  ∀ (r : Nat) (s : State) (u : RideUnit) (e : Estimator), s.units.find r = some u → s.ests.find r = some e →
    (∀ d : Delivery, u.state.isTesting = false → take d s (.testMinute r) = s) ∧
    (∀ (d : Delivery) (v : RideUnit), u.state.isTesting = true →
      v = { u with testMinutes := min 255 (u.testMinutes + 1) } → ∃ t, t = take d s (.testMinute r) ∧
      t.units.find r = some
        (if u.config.testDispatches ≤ v.testDispatches ∧ u.config.testMinutes ≤ v.testMinutes then
          afterTest s.time.closePassed (decide (e.q = 0) && s.allResolved r) s.clockNow v
        else v) ∧
      OthersKept r s.units t.units ∧ OthersKept r s.ests t.ests ∧ t.time = s.time ∧ t.poller = s.poller ∧
      PassesKept s t ∧ PortKept s t) ∧
    ∀ (code : Nat) (n : Option Nat) (v : RideUnit), u.state.isTesting = true →
      v = { u with
        clear := if 128 ≤ code then 0 else u.clear
        fault := if 128 ≤ code then u.fault else 0
        stall := if 0 < n.getD 0 then 0 else u.stall
        testDispatches := match n with
          | none => u.testDispatches
          | some x => min 255 (u.testDispatches + x) } →
      (unitReport r code n s).units.find r = some
        (if u.config.testDispatches ≤ v.testDispatches ∧ u.config.testMinutes ≤ v.testMinutes then
          afterTest s.time.closePassed (decide (e.q = 0) && s.allResolved r) s.clockNow v
        else v)

/-- STALE_HOLD_REACHED: a LOST ride at its stale hold becomes stale and its published wait absent. -/
def Obligations.StaleHoldReached : Prop :=
  ∀ (r : Nat) (s : State) (f : FieldRecord) (e : Estimator), s.poller.records.find r = some f →
    s.ests.find r = some e → f.link = .lost → e.stale = false → s.time.params.staleHold ≤ e.staleTimer →
    ∃ t, exec (.staleHoldReached r) s = .next t ∧
      t.ests.find r = some { e with stale := true, wait := none } ∧ OthersKept r s.ests t.ests ∧
      (e.wait ≠ none → t.boards = (blinkRide r s).boards) ∧ (e.wait = none → t.boards = s.boards) ∧
      t.time = s.time ∧ t.units = s.units ∧ t.poller = s.poller ∧ t.book = s.book ∧ t.notices = s.notices ∧
      t.port = s.port

/-- Overrides. The minute tick, as the Board Composer takes it, counts every line of every board: a numeric OVERRIDE_LEFT falls
by one and its override is removed at 0; one until released stands. OVERRIDE_EXPIRY completes in every state: it removes the
override of a line with none left, and nothing else moves; since the tick has removed such an override, it then finds none in
any state that keeps the ranges (the threshold's two places: log 1, DEDUCED). -/
def Obligations.OverridesExpire : Prop :=
  (∀ (d : Delivery) (s t : State), t = take d s .overrides →
    t = { s with boards := { s.boards with table := t.boards.table } } ∧ t.boards.table.keys = s.boards.table.keys ∧
    ∀ a b, s.boards.table.find a = some b →
      t.boards.table.find a = some { b with lines := b.lines.map Line.countDown }) ∧
  (∀ (l : Line) (text : Text) (n : Nat), l.override = some { text := text, left := .minutes n } →
    l.countDown = if n ≤ 1 then { l with override := none }
      else { l with override := some { text := text, left := .minutes (n - 1) } }) ∧
  (∀ (l : Line) (text : Text), l.override = some { text := text, left := .untilReleased } → l.countDown = l) ∧
  (∀ l : Line, l.override = none → l.countDown = l) ∧
  (∀ (a n : Nat) (s : State) (b : Board) (l : Line), s.boards.table.find a = some b → 1 ≤ n → b.lines[n - 1]? = some l →
    ∃ t, exec (.overrideExpiry a n) s = .next t ∧
      t.boards.table.find a = some { b with
        lines := b.lines.set (n - 1)
          (if l.override.map (·.left) = some (.minutes 0) then { l with override := none } else l) } ∧
      OthersKept a s.boards.table t.boards.table ∧ t.boards.line = s.boards.line ∧ t.boards.pass = s.boards.pass ∧
      t.boards.timer = s.boards.timer ∧ t.boards.due = s.boards.due ∧ t.boards.startOwed = s.boards.startOwed ∧
      t.time = s.time ∧ t.units = s.units ∧ t.ests = s.ests ∧ t.poller = s.poller ∧ t.book = s.book ∧
      t.notices = s.notices ∧ t.port = s.port) ∧
  (∀ (a n : Nat) (s : State), n = 0 ∨ (∀ x ∈ s.boards.table, x.1 = a → x.2.lines.length < n) →
    exec (.overrideExpiry a n) s = .next s) ∧
  ∀ (a n : Nat) (s : State), RangeInv s → exec (.overrideExpiry a n) s = .next s

/-! ### The field link -/

/-- POLL_SENT on a free line, and on a reserved one, where the row means that the reserved window has closed (the model's
reading, log 23, DEDUCED): the next configured ride above the last polled, or the lowest, is polled at its address;
nothing but the line moves; the model keeps the frame in `sent` (its choice, log 20). -/
def Obligations.PollSent : Prop :=
  ∀ (s : State) (r : Nat) (f : FieldRecord), s.poller.line = .idle ∨ s.poller.line = .reserved →
    s.poller.records.find r = some f → s.units.wf →
    (s.poller.last < r ∧ r ∈ s.units.keys ∧ (∀ j ∈ s.units.keys, s.poller.last < j → r ≤ j)) ∨
      (r ∈ s.units.keys ∧ (∀ j ∈ s.units.keys, j ≤ s.poller.last ∧ r ≤ j)) →
    exec .pollSent s = .next { s with poller := { s.poller with
      line := .outstanding r f.address [], last := r,
      sent := [0xC3#8, BitVec.ofNat 8 f.address] ++ crcBytes [BitVec.ofNat 8 f.address] } }

/-- A good reply. It is judged by its thirteen bytes: the start byte, ten bytes with ADDRESS, CODE and the four counters,
high byte first, and their check, the ADDRESS being the one polled (R45). In the field record: LINK UP, MISSES 0, LAST_CODE,
the reply's counters as the baseline; GAP grows for an implausible one, which calls for a GAP notice and spoils the
minute's sample. A baseline-only or an implausible reply of a ride
not TESTING moves its persistence timer by CODE alone. A LOST ride is stale no longer and its LINK level falls. The Ride State
Unit and the Flow Estimator take the reply in either order, a free value (R49; log 4): a stale LOST ride whose test the reply
completes publishes at its opening where the Flow Estimator is first, and where the Ride State Unit is, has its wait absent
and RENEW set. -/
def Obligations.GoodReplyRecord : Prop :=
  (∀ (s : State) (r address : Nat) (got bytes : List Byte) (rep : Report) (f : FieldRecord),
    s.poller.line = .outstanding r address got → 13 ≤ (got ++ bytes).length →
    judgeReport address ((got ++ bytes).take 13) = some rep → s.poller.records.find r = some f →
    ∃ t, exec (.goodReply bytes) s = .next t ∧ t.poller.line = .idle ∧
      t.poller.records.find r = some
        { f with
          link := .up, misses := 0, lastCode := some rep.code, baseValid := true, base := rep.counters
          gap := if f.baseValid = true ∧ (rep.counters.since f.base).plausible = false then min 255 (f.gap + 1)
            else f.gap } ∧
      OthersKept r s.poller.records t.poller.records ∧ OthersKept r s.units t.units ∧ OthersKept r s.ests t.ests ∧
      t.time = s.time ∧ PassesKept s t ∧ PortKept s t ∧
      (f.link = .lost → (t.slot ⟨.link, r⟩).image = false ∧
        ∀ e, s.ests.find r = some e → ∃ e', t.ests.find r = some e' ∧ e'.stale = false ∧ e'.staleTimer = 0) ∧
      (f.link ≠ .lost → (t.slot ⟨.link, r⟩).image = (s.slot ⟨.link, r⟩).image) ∧
      (∀ u, s.units.find r = some u → u.state.isTesting = false →
        f.baseValid = false ∨ (rep.counters.since f.base).plausible = false →
        t.units.find r = some (if 128 ≤ rep.code then { u with clear := 0 } else { u with fault := 0 })) ∧
      (f.baseValid = true → (rep.counters.since f.base).plausible = false →
        (t.slot ⟨.gap, r⟩).pending.isSome = true ∧
        ∀ e, s.ests.find r = some e → ∃ e', t.ests.find r = some e' ∧ e'.eligible = false ∧ e'.m = e.m ∧ e'.mr = e.mr) ∧
      ∀ u e c, s.units.find r = some u → s.ests.find r = some e → f.link = .lost → f.baseValid = false →
        s.time.closePassed = false → u.state = .testing c → u.config.testDispatches ≤ u.testDispatches →
        u.config.testMinutes ≤ u.testMinutes → e.stale = true → e.wait = none →
        (t.units.find r).map (·.state) = some .opened ∧ ∃ e', t.ests.find r = some e' ∧
          (s.takeHandover.1 = false → e'.wait.isSome = true ∧ e'.renew = false) ∧
          (s.takeHandover.1 = true → e'.wait = none ∧ e'.renew = true)) ∧
  ∀ (address : Nat) (bs : List Byte) (rep : Report), judgeReport address bs = some rep ↔
    ∃ a c e1 e0 s1 s0 r1 r0 d1 d0 : Byte,
      bs = 0xA5#8 :: ([a, c, e1, e0, s1, s0, r1, r0, d1, d0] ++ crcBytes [a, c, e1, e0, s1, s0, r1, r0, d1, d0]) ∧
      a.toNat = address ∧
      rep = { code := c.toNat
              counters := { entered := e1.toNat * 256 + e0.toNat, standby := s1.toNat * 256 + s0.toNat
                            ret := r1.toNat * 256 + r0.toNat, dispatches := d1.toNat * 256 + d0.toNat } }

/-- A delta report: Q moves by entered minus standby, clamped, in any STATE but CLOSED; M and MR grow; a dispatch sets the
stall timer to 0 and ends a stall; whatever the order of the two parts. Left to their order is a test that completes after
park close, since the ride may then be CLOSED before its guests are counted.
While TESTING the dispatches join the test count, and the test completes at once where its thresholds are then met; in another
STATE the count stands, and STATE too but for a stall that ends and a CLOSING ride, which may close.
The deltas of a reply (R52) are taken modulo 65,536: in 0..65,535, the true count across a wrap, 0 for a counter that has
not moved. -/
def Obligations.DeltaReportCounts : Prop :=
  (∀ (s : State) (r address : Nat) (got bytes : List Byte) (rep : Report) (f : FieldRecord) (u : RideUnit)
      (e : Estimator) (d : Counters), s.poller.line = .outstanding r address got → 13 ≤ (got ++ bytes).length →
      judgeReport address ((got ++ bytes).take 13) = some rep → s.poller.records.find r = some f →
      s.units.find r = some u → s.ests.find r = some e → f.baseValid = true → f.link = .up →
      (u.state.isTesting = true → s.time.closePassed = false) →
      d = rep.counters.since f.base → d.plausible = true →
      ∃ (t : State) (u' : RideUnit) (e' : Estimator), exec (.goodReply bytes) s = .next t ∧
        t.ests.find r = some e' ∧
        e'.q = (if u.state = .closed then e.q else min 9999 (e.q + d.entered - d.standby)) ∧
        e'.m = min 4095 (e.m + d.standby) ∧ e'.mr = min 4095 (e.mr + d.ret) ∧ e'.s = e.s ∧ e'.sr = e.sr ∧
        t.units.find r = some u' ∧ u'.config = u.config ∧ u'.codeLevel = u.codeLevel ∧
        (0 < d.dispatches → u'.stall = 0) ∧
        (0 < d.dispatches → u.state = .held .stall → u'.state = .opened) ∧
        (u.state.isTesting = true → u'.testDispatches = min 255 (u.testDispatches + d.dispatches) ∧
          u'.state = (if u.config.testDispatches ≤ u'.testDispatches ∧ u.config.testMinutes ≤ u.testMinutes then .opened
            else u.state)) ∧
        (u.state.isTesting = false → u'.testDispatches = u.testDispatches) ∧
        (u.state.isTesting = false → u.state ≠ .closing → ¬(u.state = .held .stall ∧ 0 < d.dispatches) →
          u'.state = u.state) ∧ u'.testMinutes = u.testMinutes ∧
        (128 ≤ rep.code → u'.clear = 0 ∧ u'.fault = u.fault) ∧ (rep.code < 128 → u'.fault = 0 ∧ u'.clear = u.clear)) ∧
  ∀ (now base : Counters), base.entered < 65536 → base.standby < 65536 → base.ret < 65536 → base.dispatches < 65536 →
    let d := now.since base
    ((d.entered : Int) = ((now.entered : Int) - base.entered) % 65536 ∧
      (d.standby : Int) = ((now.standby : Int) - base.standby) % 65536 ∧
      (d.ret : Int) = ((now.ret : Int) - base.ret) % 65536 ∧
      (d.dispatches : Int) = ((now.dispatches : Int) - base.dispatches) % 65536) ∧
    (∀ n, n < 65536 → delta ((base.entered + n) % 65536) base.entered = n)

/-- A poll is a miss where its window closes with fewer than thirteen bytes, or where the bytes that bring the thirteenth,
with either row, make no good reply (R45; the rows bring bytes and the rule judges them: log 23, DEDUCED). MISSES grows. At
SILENCE_POLLS a ride not yet LOST becomes LOST: its baseline is invalid, its LINK level up, its persistence timers 0, its
minute not eligible and its stale timer 0; with a STALE_HOLD of 0 it is stale at once, its published wait absent. -/
def Obligations.PollMissCounts : Prop :=
  ∀ (c : Instr) (s : State) (r address : Nat) (got bytes : List Byte) (f : FieldRecord) (lost : Bool),
    s.poller.line = .outstanding r address got → s.poller.records.find r = some f →
    (c = .pollMiss bytes ∧ (got ++ bytes).length < 13) ∨
      ((c = .goodReply bytes ∨ c = .pollMiss bytes) ∧ 13 ≤ (got ++ bytes).length ∧
        judgeReport address ((got ++ bytes).take 13) = none) →
    lost = decide (f.link ≠ .lost ∧ s.time.params.silencePolls ≤ min 255 (f.misses + 1)) →
    ∃ t, exec c s = .next t ∧ t.poller.line = .idle ∧
      t.poller.records.find r = some
        (if lost then { f with misses := min 255 (f.misses + 1), link := .lost, baseValid := false }
        else { f with misses := min 255 (f.misses + 1) }) ∧
      (lost = true → (t.slot ⟨.link, r⟩).image = true ∧
        (∀ u, s.units.find r = some u → t.units.find r = some { u with fault := 0, clear := 0 }) ∧
        ∀ e, s.ests.find r = some e →
          (0 < s.time.params.staleHold →
            t.ests.find r = some { e with eligible := false, staleTimer := 0 } ∧ t.boards = s.boards) ∧
          (s.time.params.staleHold = 0 →
            t.ests.find r = some { e with eligible := false, staleTimer := 0, stale := true, wait := none } ∧
            (e.wait = none → t.boards = s.boards) ∧ (e.wait ≠ none → t.boards = (blinkRide r s).boards))) ∧
      (lost = false →
        t.units = s.units ∧ t.ests = s.ests ∧ t.notices = s.notices ∧ t.port = s.port ∧ t.boards = s.boards) ∧
      OthersKept r s.poller.records t.poller.records ∧ OthersKept r s.units t.units ∧ OthersKept r s.ests t.ests ∧
      t.poller.last = s.poller.last ∧ t.poller.sent = s.poller.sent ∧ t.time = s.time ∧ t.book = s.book ∧ PortKept s t

/-! ### The board link -/

/-- The interval timer's expiry and the start of a pass: the timer from 0, the due flag clear, every pane advanced; in a
pass the expiry sets the due flag. That the expiry is a command of its own is the model's choice (log 8).
A pane is advanced by R151: the effective list leaves CLOSED rides out where SKIP_CLOSED is set; PAGE is taken modulo the page
count; at PAGE_PASSES passes the next page follows, its count beginning at 1; else the count grows, saturating at 255. -/
def Obligations.PassStarts : Prop :=
  (∀ (c : Instr) (s : State), s.boards.startOwed = false → s.boards.pass = none →
    ((c = .passIntervalExpiry ∨ c = .passStart) ∧ s.time.params.passInterval ≤ s.boards.timer) ∨
      (c = .passStart ∧ s.boards.due = true) →
    ∃ t, exec c s = .next t ∧ t.boards.timer = 0 ∧ t.boards.due = false ∧
      t.boards.pass = (if s.boards.table.isEmpty then none else some (0, 0)) ∧
      (∀ a b, s.boards.table.find a = some b →
        t.boards.table.find a = some { b with kind := b.kind.advance s.units }) ∧
      t.boards.line = s.boards.line ∧ t.time = s.time ∧ t.units = s.units ∧ t.ests = s.ests ∧ t.poller = s.poller ∧
      t.book = s.book ∧ t.notices = s.notices ∧ t.port = s.port) ∧
  (∀ (s : State) (p : Nat × Nat), s.boards.startOwed = false → s.time.params.passInterval ≤ s.boards.timer →
    s.boards.pass = some p → exec .passIntervalExpiry s = .next { s with boards := { s.boards with due := true } }) ∧
  ∀ (units : Table RideUnit) (p q : Pane),
    (∀ r, Kind.advance units (.ride r) = .ride r) ∧
    Kind.advance units (.hub p q) = .hub (p.advance units) (q.advance units) ∧
    ∀ (list : List Nat) (count : Nat),
      list = (if p.skipClosed then p.list.filter (fun r => (units.find r).map (·.state) ≠ some .closed) else p.list) →
      count = (if list = [] then 1 else (list.length + p.rows - 1) / p.rows) →
      p.advance units =
        if p.pagePasses ≤ p.pageCount then { p with page := (p.page % count + 1) % count, pageCount := 1 }
        else { p with page := p.page % count, pageCount := min 255 (p.pageCount + 1) }

/-- LINE_FRAME_SENT in a pass on a free line: the next line is composed and sent, its reply window open; BLINK falls by
one; the model keeps the frame in `sent` (its choice, log 20). What is composed: the override; outside DAY the default text; in
DAY on a RIDE board its name, its wait by STATE, and the quote for a party of 1, the lowest suitable window; on a HUB board
the row of the page shown, a fitted name in 13 columns, a space, and a wait field set right in 6; else a blank, SHOWN
absent (R146 to R151). -/
def Obligations.LineFrameSent : Prop :=
  (∀ (s : State) (a l a' n : Nat) (b : Board) (ln : Line) (text : Text), s.boards.line = .idle →
    s.boards.pass = some (a, l) → nextLine s.boards.table a l = some (a', n) → s.boards.table.find a' = some b →
    1 ≤ n → b.lines[n - 1]? = some ln →
    text = (composeLine b n ln s).text ++ List.replicate (20 - (composeLine b n ln s).text.length) 0x20#8 →
    ∃ t, exec .lineFrameSent s = .next t ∧ t.boards.line = .outstanding a' n ∧ t.boards.pass = some (a', n) ∧
      (∃ covered, t.boards.sent = 0x96#8 :: (covered ++ crcBytes covered) ∧
        covered = [BitVec.ofNat 8 a', BitVec.ofNat 8 n,
          BitVec.ofNat 8 (if 0 < ln.blink then s.time.params.blinkDuty / 25 else 0)] ++ text) ∧
      t.boards.table.find a' = some
        { b with
          lines := b.lines.set (n - 1)
            { ln with shown := (composeLine b n ln s).shown, lastText := some text, blink := ln.blink - 1 } } ∧
      OthersKept a' s.boards.table t.boards.table ∧ t.time = s.time ∧ t.units = s.units ∧ t.ests = s.ests ∧
      t.poller = s.poller ∧ t.book = s.book ∧ t.notices = s.notices ∧ t.port = s.port) ∧
  (∀ (b : Board) (n : Nat) (l : Line) (s : State),
    (∀ o, l.override = some o → composeLine b n l s = ⟨o.text, none⟩) ∧
    (l.override = none → s.time.day ≠ .day → composeLine b n l s = ⟨match b.kind, n with
        | _, 1 => s.time.params.text1
        | .ride _, 2 => s.time.params.text2
        | .ride _, 3 => s.time.params.text3
        | _, _ => [], none⟩) ∧
    (∀ r u e, l.override = none → s.time.day = .day → b.kind = .ride r → s.units.find r = some u →
      s.ests.find r = some e →
      (n = 1 → composeLine b n l s = ⟨u.config.fullName, some r⟩) ∧
      (n = 2 → composeLine b n l s = ⟨waitLine u.state e.wait, some r⟩) ∧
      (n = 3 → (composeLine b n l s).shown = some r ∧
        (¬(u.state = .opened ∨ ∃ c, u.state = .held c) ∨ e.wait = none → (composeLine b n l s).text = []) ∧
        ∀ w m, u.state = .opened ∨ (∃ c, u.state = .held c) → e.wait = some w →
          m = s.minute + max s.time.params.lead w.value →
          (∀ (i : Nat) (x : Window), (s.rideBook r).windows[i]? = some x → x.resolved = false → m < x.endMin →
            1 ≤ x.cap - x.issued - x.hold →
            (∀ (j : Nat) (y : Window), j < i → (s.rideBook r).windows[j]? = some y →
              y.resolved = true ∨ y.endMin ≤ m ∨ y.cap - y.issued - y.hold < 1) →
            (composeLine b n l s).text =
              txt ['R', 'E', 'T', 'U', 'R', 'N', ' ', 'F', 'R', 'O', 'M', ' '] ++ hhmm x.startMin) ∧
          ((∀ y ∈ (s.rideBook r).windows, y.resolved = true ∨ y.endMin ≤ m ∨ y.cap - y.issued - y.hold < 1) →
            (composeLine b n l s).text = txt ['R', 'E', 'T', 'U', 'R', 'N', ' ', 'F', 'U', 'L', 'L']))) ∧
    ∀ (p q : Pane), l.override = none → s.time.day = .day → b.kind = .hub p q → 1 ≤ n →
      (p.rows + q.rows < n → composeLine b n l s = ⟨[], none⟩) ∧
      ∀ (pane : Pane) (row : Nat) (list : List Nat) (count : Nat),
        (n ≤ p.rows ∧ pane = p ∧ row = n - 1) ∨ (p.rows < n ∧ n ≤ p.rows + q.rows ∧ pane = q ∧ row = n - 1 - p.rows) →
        list = (if pane.skipClosed then pane.list.filter (fun r => (s.units.find r).map (·.state) ≠ some .closed)
          else pane.list) →
        count = (if list = [] then 1 else (list.length + pane.rows - 1) / pane.rows) →
        (list[pane.page % count * pane.rows + row]? = none → composeLine b n l s = ⟨[], none⟩) ∧
        ∀ r u e name field, list[pane.page % count * pane.rows + row]? = some r → s.units.find r = some u →
          s.ests.find r = some e →
          name = (if pane.fit = .fullFirst ∧ u.config.fullName.length ≤ 13 then u.config.fullName
            else u.config.shortName.getD (twoDigits r)) →
          field = waitField u.state e.wait →
          composeLine b n l s =
            ⟨name ++ List.replicate (13 - name.length) 0x20#8 ++ [0x20#8] ++
              List.replicate (6 - field.length) 0x20#8 ++ field, some r⟩) ∧
  (∀ (st : RideState) (w : Option Wait),
    (st = .opened ∨ (∃ c, st = .held c) →
      (∀ v, w = some v →
        waitLine st w = txt ['W', 'A', 'I', 'T', ' '] ++ decimal v.value ++ (if v.plus then txt ['+'] else []) ++
          txt [' ', 'M', 'I', 'N'] ∧
        waitField st w = decimal v.value ++ (if v.plus then txt ['+'] else [])) ∧
      (w = none → waitLine st w = txt ['W', 'A', 'I', 'T', ' ', '-', '-'] ∧ waitField st w = txt ['-', '-'])) ∧
    (st = .closing → waitLine st w = txt ['Q', 'U', 'E', 'U', 'E', ' ', 'C', 'L', 'O', 'S', 'E', 'D'] ∧
      waitField st w = txt ['L', 'A', 'S', 'T']) ∧
    (st.isTesting = true → waitLine st w = txt ['O', 'P', 'E', 'N', 'I', 'N', 'G', ' ', 'S', 'O', 'O', 'N'] ∧
      waitField st w = txt ['S', 'O', 'O', 'N']) ∧
    (st.isDown = true →
      waitLine st w = txt ['T', 'E', 'M', 'P', 'O', 'R', 'A', 'R', 'I', 'L', 'Y', ' ', 'C', 'L', 'O', 'S', 'E', 'D'] ∧
      waitField st w = txt ['D', 'O', 'W', 'N']) ∧
    (st = .closed → waitLine st w = txt ['C', 'L', 'O', 'S', 'E', 'D'] ∧
      waitField st w = txt ['C', 'L', 'O', 'S', 'E', 'D'])) ∧
  (∀ n : Nat, n < 1000 → decimal n = txt (Nat.toDigits 10 n)) ∧
  (∀ n : Nat, n < 100 → twoDigits n = (if n < 10 then txt ['0'] else []) ++ txt (Nat.toDigits 10 n)) ∧
  ∀ m : Nat, hhmm m = twoDigits (m / 60) ++ txt [':'] ++ twoDigits (m % 60)

/-- How a line frame ends. By a status byte or a miss: presence, misses and status, and the BOARD level judged where PRESENCE
or LAST_STATUS changed; then the pass makes its next choice. Abandoned, when its reserved window closes: the line is free, and
an owed pass starts, else the pass makes its next choice. The choice: a pass with a line left stands; after the last line of
the last board the pass ends, and a due pass starts, its timer from 0, the due flag clear and every pane advanced (R140,
R141). -/
def Obligations.LineFrameEnds : Prop :=
  (∀ (s : State) (a n : Nat) (b : Board), s.boards.line = .outstanding a n → s.boards.table.find a = some b →
      (∀ status : Byte, ∃ (t : State) (b' : Board), exec (.boardStatus status) s = .next t ∧
        t.boards.line = .idle ∧ t.boards.table.find a = some b' ∧ b'.misses = 0 ∧ b'.presence = .present ∧
        b'.lastStatus = some status.toNat ∧ b'.lines = b.lines ∧
        b'.level = (if b.presence = .present ∧ b.lastStatus = some status.toNat then b.level
          else decide (status.toNat ≠ 0)) ∧
        (∀ x y, x ≠ a → s.boards.table.find x = some y → ∃ k, t.boards.table.find x = some { y with kind := k }) ∧
        NextChoice s t ∧ t.time = s.time ∧ t.units = s.units ∧ t.ests = s.ests ∧ t.poller = s.poller ∧ t.book = s.book ∧
        PortKept s t) ∧
      ∃ (t : State) (b' : Board), exec .boardMiss s = .next t ∧ t.boards.line = .idle ∧
        t.boards.table.find a = some b' ∧ b'.misses = min 255 (b.misses + 1) ∧
        b'.presence = (if 3 ≤ min 255 (b.misses + 1) then .silent else b.presence) ∧
        b'.lastStatus = b.lastStatus ∧ b'.lines = b.lines ∧
        b'.level = (if b'.presence = b.presence then b.level else true) ∧
        (∀ x y, x ≠ a → s.boards.table.find x = some y → ∃ k, t.boards.table.find x = some { y with kind := k }) ∧
        NextChoice s t ∧ t.time = s.time ∧ t.units = s.units ∧ t.ests = s.ests ∧ t.poller = s.poller ∧ t.book = s.book ∧ PortKept s t) ∧
  (∀ s : State, s.boards.line = .reserved →
    ∃ t, exec .abandonedFrameWindowClose s = .next t ∧ t.boards.line = .idle ∧ t.boards.startOwed = false ∧
      (s.boards.startOwed = true → t.boards.timer = 0 ∧ t.boards.due = false ∧
        t.boards.pass = (if s.boards.table.isEmpty then none else some (0, 0)) ∧
        ∀ x b, s.boards.table.find x = some b → HasKind t x (b.kind.advance s.units)) ∧
      (s.boards.startOwed = false → NextChoice s t) ∧
      (∀ x y, s.boards.table.find x = some y → ∃ k, t.boards.table.find x = some { y with kind := k }) ∧
      t.time = s.time ∧ t.units = s.units ∧ t.ests = s.ests ∧ t.poller = s.poller ∧ t.book = s.book ∧
      t.notices = s.notices ∧ t.port = s.port) ∧
  ∀ (table : Table Board) (a l : Nat), table.wf →
    (∀ b, table.find a = some b → l < b.kind.lineCount → nextLine table a l = some (a, l + 1)) ∧
    ((∀ b, table.find a = some b → b.kind.lineCount ≤ l) →
      (∀ x, x ∈ table.keys → a < x → (∀ y ∈ table.keys, a < y → x ≤ y) → nextLine table a l = some (x, 1)) ∧
      ((∀ y ∈ table.keys, y ≤ a) → nextLine table a l = none))

/-! ### Arithmetic the spec states -/

/-- The raw wait (R71). -/
def Obligations.RawWait : Prop :=
  ∀ q s : Nat, (q = 0 → rawWait q s = 0) ∧ (0 < q → s < 8 → rawWait q s = 999) ∧
    (0 < q → 8 ≤ s → rawWait q s = min 999 ((8 * q + s - 1) / s))

/-- The candidate of a target wait (R74), and when it is published. A minute tick (its taking by the Flow Estimator for a
ride) counts the stale timer of a LOST ride, which becomes stale at STALE_HOLD, its wait absent (R77); computes WR and WT, clears
RENEW, and publishes the candidate of an in-service ride that is not stale if the published wait is absent, RENEW is set, or it
differs by HYST, in PLUS, or in exactly one WR being 999 (R75); a change blinks the ride's lines, and one of at least JUMP
between present values calls for a JUMP notice (R79, R80). A held ride whose held minutes reach DOWN_AFTER with AUTO set goes
DOWN (HELD_TOO_LONG) in the same taking, its wait absent (R32, R73); whether WT has been computed by then is a free value, the
order of the report of the held minute and the tick's last steps (log 4). A state change computes at each entry into service,
publishing at once unless STALE is set, and makes the wait absent out of service (R60, R76). -/
def Obligations.WaitPublished : Prop :=
  (∀ (p : Params) (wt : Nat), 0 < p.step →
      (p.postMax ≤ wt → candidate p wt = { value := p.postMax, plus := true }) ∧
      (wt < p.postMax → (candidate p wt).plus = false ∧ p.step ∣ (candidate p wt).value ∧
        wt ≤ (candidate p wt).value ∧ (candidate p wt).value < wt + p.step)) ∧
  (∀ (d : Delivery) (k : Taking) (r : Nat) (s t : State) (u : RideUnit) (f : FieldRecord) (e m : Estimator) (new : Wait)
      (wr wt grown : Nat) (now : Bool), plain k = .estimator r → s.units.find r = some u →
    s.poller.records.find r = some f → s.ests.find r = some e →
    grown = min 255 (e.staleTimer + 1) →
    now = decide (f.link = .lost ∧ e.stale = false ∧ s.time.params.staleHold ≤ grown) →
    m = { e.minute s.time.params u (decide (f.link = .up)) d.forward with
      staleTimer := if f.link = .lost then grown else e.staleTimer
      stale := e.stale || now
      wait := if now then none else e.wait } →
    t = take d s k → wr = rawWait m.q m.s →
    wt = min 999 (wr + u.config.walk + if u.state.isHeld then m.heldMin else 0) → new = candidate s.time.params wt →
    ((u.state.isHeld = true → u.config.auto = true → m.heldMin < u.config.downAfter) →
      ∃ w, t.ests.find r = some { m with wr := wr, wt := wt, renew := false, wait := w } ∧
        w = (if u.state.inService = true ∧ m.stale = false ∧
            (m.wait = none ∨ e.renew = true ∨ ∃ old, m.wait = some old ∧
              (s.time.params.hyst ≤ distance new.value old.value ∨ new.plus ≠ old.plus ∨
                ¬(wr = 999 ↔ e.wr = 999))) then some new else m.wait) ∧
        (w ≠ e.wait → t.boards = (blinkRide r s).boards) ∧ (w = e.wait → t.boards = s.boards) ∧
        ((∃ old, e.wait = some old ∧ w = some new ∧ 0 < s.time.params.jump ∧
            s.time.params.jump ≤ distance new.value old.value) → (t.slot ⟨.jump, r⟩).pending.isSome = true) ∧
        (¬(∃ old, e.wait = some old ∧ w = some new ∧ 0 < s.time.params.jump ∧
            s.time.params.jump ≤ distance new.value old.value) → t.notices = s.notices ∧ t.port = s.port) ∧
        OthersKept r s.ests t.ests ∧ t.units = s.units ∧ t.poller = s.poller ∧ t.book = s.book ∧ t.time = s.time) ∧
    (∀ c, u.state = .held c → u.config.auto = true → u.config.downAfter ≤ m.heldMin →
      t.units.find r = some { u with state := .down .heldTooLong, since := s.clockNow } ∧
      t.ests.find r = some { m with
        wr := wr, wt := if k = .estimator r then min 999 (wr + u.config.walk) else wt
        eligible := false, renew := false, wait := none } ∧
      (c = .stall → (t.slot ⟨.stall, r⟩).image = false) ∧ t.boards = (blinkRide r s).boards ∧
      OthersKept r s.units t.units ∧ OthersKept r s.ests t.ests ∧ t.time = s.time ∧ t.poller = s.poller ∧
      PassesKept s t ∧ PortKept s t)) ∧
  (∀ (r : Nat) (s : State), (blinkRide r s).boards = { s.boards with table := (blinkRide r s).boards.table } ∧
    (blinkRide r s).boards.table.keys = s.boards.table.keys ∧
    ∀ a b, s.boards.table.find a = some b → (blinkRide r s).boards.table.find a = some
      { b with lines := b.lines.map fun l =>
          if l.shown = some r then { l with blink := s.time.params.blinkPasses } else l }) ∧
  (∀ (r : Nat) (new : RideState) (s : State) (u : RideUnit), s.units.find r = some u →
    (changeState r new s).ests = (estimatorHears r new (s.modUnit r fun u => { u with state := new })).ests) ∧
  ∀ (r : Nat) (s : State) (u : RideUnit) (e : Estimator) (h wt : Nat), s.units.find r = some u → s.ests.find r = some e →
    h = (if u.state.isHeld then 0 else e.heldMin) →
    wt = min 999 (rawWait e.q e.s + u.config.walk + if u.state.isHeld then h else 0) →
    (u.state.inService = true → (estimatorHears r u.state s).ests.find r = some
      { e with
        heldMin := h, wr := rawWait e.q e.s, wt := wt
        eligible := if u.state.isHeld then false else e.eligible
        renew := if e.stale then e.renew else false
        wait := if e.stale then e.wait
          else some (candidate s.time.params wt) }) ∧
    (u.state.inService = false → (estimatorHears r u.state s).ests.find r = some
      { e with q := if u.state = .closed then 0 else e.q, eligible := false, wait := none })

/-- Smoothing at the minute tick of a sampled minute (R69): the adjustment rounded toward minus infinity, the result
clamped to 0..32,767, for S and SR alike; a minute not sampled leaves both. The taking's other first steps: M and MR are 0, the
next minute is eligible while the ride is OPEN or CLOSING with LINK UP and the tick is not of a forward correction, and HELD_MIN
of a HELD ride grows by one; nothing else of the record moves (R66 to R68, R73). -/
def Obligations.Smoothing : Prop :=
  ∀ (p : Params) (u : RideUnit) (up forward : Bool) (e : Estimator),
    (e.eligible = true →
      ((e.minute p u up forward).s : Int) =
        max 0 (min 32767 ((e.s : Int) + (((8 * e.m : Int) - e.s) * p.k + 8).fdiv 16)) ∧
      ((e.minute p u up forward).sr : Int) =
        max 0 (min 32767 ((e.sr : Int) + (((8 * e.mr : Int) - e.sr) * p.k + 8).fdiv 16))) ∧
    (e.eligible = false → (e.minute p u up forward).s = e.s ∧ (e.minute p u up forward).sr = e.sr) ∧
    e.minute p u up forward = { e with
      s := (e.minute p u up forward).s, sr := (e.minute p u up forward).sr, m := 0, mr := 0
      eligible := decide ((u.state = .opened ∨ u.state = .closing) ∧ up = true ∧ forward = false)
      heldMin := if u.state.isHeld then min 999 (e.heldMin + 1) else e.heldMin }

/-- The check of R170: from 0xFFFF, each byte into the upper eight bits and eight steps with 0x1021; high byte first; the
two check values the rule gives; and its place at the end of a frame of each of the three links. -/
def Obligations.CrcCheck : Prop :=
  crc16 [] = 0xFFFF#16 ∧
  crc16 [0x31#8, 0x32#8, 0x33#8, 0x34#8, 0x35#8, 0x36#8, 0x37#8, 0x38#8, 0x39#8] = 0x29B1#16 ∧
  (∀ (bs : List Byte) (b : Byte), crc16 (bs ++ [b]) =
    (List.range 8).foldl (fun c _ => if c.msb then (c <<< 1) ^^^ 0x1021#16 else c <<< 1)
      (crc16 bs ^^^ (b.setWidth 16 <<< 8))) ∧
  (∀ bs : List Byte, crcBytes bs = [(crc16 bs >>> 8).setWidth 8, (crc16 bs).setWidth 8]) ∧
  (∀ (tag cls : Nat) (ps : List Byte), ∃ covered, opsFrame tag cls ps = 0x5A#8 :: (covered ++ crcBytes covered) ∧
    covered = putNum 2 (ps.length + 2) ++ [BitVec.ofNat 8 tag, BitVec.ofNat 8 cls] ++ ps) ∧
  (∀ a : Nat, pollFrame a = 0xC3#8 :: ([BitVec.ofNat 8 a] ++ crcBytes [BitVec.ofNat 8 a])) ∧
  (∀ (a l k : Nat) (text : Text), ∃ covered, lineFrame a l k text = 0x96#8 :: (covered ++ crcBytes covered) ∧
    covered = [BitVec.ofNat 8 a, BitVec.ofNat 8 l, BitVec.ofNat 8 k] ++ text)
end

