-- ==== Sys2Proof/Laws/State.lean ====
section
/-! SUPPORT. One lemma per field per update of the state, each true by definition. -/

namespace Sys2Proof.Machine

@[simp] theorem State.modUnit_time (s : State) (r : Nat) (f : RideUnit → RideUnit) :
    (s.modUnit r f).time = s.time := rfl
@[simp] theorem State.modUnit_units (s : State) (r : Nat) (f : RideUnit → RideUnit) :
    (s.modUnit r f).units = s.units.update r f := rfl
@[simp] theorem State.modUnit_poller (s : State) (r : Nat) (f : RideUnit → RideUnit) :
    (s.modUnit r f).poller = s.poller := rfl
@[simp] theorem State.modUnit_ests (s : State) (r : Nat) (f : RideUnit → RideUnit) :
    (s.modUnit r f).ests = s.ests := rfl
@[simp] theorem State.modUnit_book (s : State) (r : Nat) (f : RideUnit → RideUnit) :
    (s.modUnit r f).book = s.book := rfl
@[simp] theorem State.modUnit_boards (s : State) (r : Nat) (f : RideUnit → RideUnit) :
    (s.modUnit r f).boards = s.boards := rfl
@[simp] theorem State.modUnit_notices (s : State) (r : Nat) (f : RideUnit → RideUnit) :
    (s.modUnit r f).notices = s.notices := rfl
@[simp] theorem State.modUnit_port (s : State) (r : Nat) (f : RideUnit → RideUnit) :
    (s.modUnit r f).port = s.port := rfl
@[simp] theorem State.modUnit_orders (s : State) (r : Nat) (f : RideUnit → RideUnit) :
    (s.modUnit r f).orders = s.orders := rfl
@[simp] theorem State.modUnit_pending (s : State) (r : Nat) (f : RideUnit → RideUnit) :
    (s.modUnit r f).pending = s.pending := rfl

@[simp] theorem State.modField_time (s : State) (r : Nat) (f : FieldRecord → FieldRecord) :
    (s.modField r f).time = s.time := rfl
@[simp] theorem State.modField_units (s : State) (r : Nat) (f : FieldRecord → FieldRecord) :
    (s.modField r f).units = s.units := rfl
@[simp] theorem State.modField_poller (s : State) (r : Nat) (f : FieldRecord → FieldRecord) :
    (s.modField r f).poller = { s.poller with records := s.poller.records.update r f } := rfl
@[simp] theorem State.modField_ests (s : State) (r : Nat) (f : FieldRecord → FieldRecord) :
    (s.modField r f).ests = s.ests := rfl
@[simp] theorem State.modField_book (s : State) (r : Nat) (f : FieldRecord → FieldRecord) :
    (s.modField r f).book = s.book := rfl
@[simp] theorem State.modField_boards (s : State) (r : Nat) (f : FieldRecord → FieldRecord) :
    (s.modField r f).boards = s.boards := rfl
@[simp] theorem State.modField_notices (s : State) (r : Nat) (f : FieldRecord → FieldRecord) :
    (s.modField r f).notices = s.notices := rfl
@[simp] theorem State.modField_port (s : State) (r : Nat) (f : FieldRecord → FieldRecord) :
    (s.modField r f).port = s.port := rfl
@[simp] theorem State.modField_orders (s : State) (r : Nat) (f : FieldRecord → FieldRecord) :
    (s.modField r f).orders = s.orders := rfl
@[simp] theorem State.modField_pending (s : State) (r : Nat) (f : FieldRecord → FieldRecord) :
    (s.modField r f).pending = s.pending := rfl

@[simp] theorem State.modEst_time (s : State) (r : Nat) (f : Estimator → Estimator) :
    (s.modEst r f).time = s.time := rfl
@[simp] theorem State.modEst_units (s : State) (r : Nat) (f : Estimator → Estimator) :
    (s.modEst r f).units = s.units := rfl
@[simp] theorem State.modEst_poller (s : State) (r : Nat) (f : Estimator → Estimator) :
    (s.modEst r f).poller = s.poller := rfl
@[simp] theorem State.modEst_ests (s : State) (r : Nat) (f : Estimator → Estimator) :
    (s.modEst r f).ests = s.ests.update r f := rfl
@[simp] theorem State.modEst_book (s : State) (r : Nat) (f : Estimator → Estimator) :
    (s.modEst r f).book = s.book := rfl
@[simp] theorem State.modEst_boards (s : State) (r : Nat) (f : Estimator → Estimator) :
    (s.modEst r f).boards = s.boards := rfl
@[simp] theorem State.modEst_notices (s : State) (r : Nat) (f : Estimator → Estimator) :
    (s.modEst r f).notices = s.notices := rfl
@[simp] theorem State.modEst_port (s : State) (r : Nat) (f : Estimator → Estimator) :
    (s.modEst r f).port = s.port := rfl
@[simp] theorem State.modEst_orders (s : State) (r : Nat) (f : Estimator → Estimator) :
    (s.modEst r f).orders = s.orders := rfl
@[simp] theorem State.modEst_pending (s : State) (r : Nat) (f : Estimator → Estimator) :
    (s.modEst r f).pending = s.pending := rfl

@[simp] theorem State.modBook_time (s : State) (r : Nat) (f : RideBook → RideBook) :
    (s.modBook r f).time = s.time := rfl
@[simp] theorem State.modBook_units (s : State) (r : Nat) (f : RideBook → RideBook) :
    (s.modBook r f).units = s.units := rfl
@[simp] theorem State.modBook_poller (s : State) (r : Nat) (f : RideBook → RideBook) :
    (s.modBook r f).poller = s.poller := rfl
@[simp] theorem State.modBook_ests (s : State) (r : Nat) (f : RideBook → RideBook) :
    (s.modBook r f).ests = s.ests := rfl
@[simp] theorem State.modBook_book (s : State) (r : Nat) (f : RideBook → RideBook) :
    (s.modBook r f).book = { s.book with rides := s.book.rides.update r f } := rfl
@[simp] theorem State.modBook_boards (s : State) (r : Nat) (f : RideBook → RideBook) :
    (s.modBook r f).boards = s.boards := rfl
@[simp] theorem State.modBook_notices (s : State) (r : Nat) (f : RideBook → RideBook) :
    (s.modBook r f).notices = s.notices := rfl
@[simp] theorem State.modBook_port (s : State) (r : Nat) (f : RideBook → RideBook) :
    (s.modBook r f).port = s.port := rfl
@[simp] theorem State.modBook_orders (s : State) (r : Nat) (f : RideBook → RideBook) :
    (s.modBook r f).orders = s.orders := rfl
@[simp] theorem State.modBook_pending (s : State) (r : Nat) (f : RideBook → RideBook) :
    (s.modBook r f).pending = s.pending := rfl

@[simp] theorem State.modWindow_time (s : State) (r i : Nat) (f : Window → Window) :
    (s.modWindow r i f).time = s.time := rfl
@[simp] theorem State.modWindow_units (s : State) (r i : Nat) (f : Window → Window) :
    (s.modWindow r i f).units = s.units := rfl
@[simp] theorem State.modWindow_poller (s : State) (r i : Nat) (f : Window → Window) :
    (s.modWindow r i f).poller = s.poller := rfl
@[simp] theorem State.modWindow_ests (s : State) (r i : Nat) (f : Window → Window) :
    (s.modWindow r i f).ests = s.ests := rfl
@[simp] theorem State.modWindow_book (s : State) (r i : Nat) (f : Window → Window) :
    (s.modWindow r i f).book = { s.book with rides := s.book.rides.update r fun b => { b with windows := b.windows.modify i f } } := rfl
@[simp] theorem State.modWindow_boards (s : State) (r i : Nat) (f : Window → Window) :
    (s.modWindow r i f).boards = s.boards := rfl
@[simp] theorem State.modWindow_notices (s : State) (r i : Nat) (f : Window → Window) :
    (s.modWindow r i f).notices = s.notices := rfl
@[simp] theorem State.modWindow_port (s : State) (r i : Nat) (f : Window → Window) :
    (s.modWindow r i f).port = s.port := rfl
@[simp] theorem State.modWindow_orders (s : State) (r i : Nat) (f : Window → Window) :
    (s.modWindow r i f).orders = s.orders := rfl
@[simp] theorem State.modWindow_pending (s : State) (r i : Nat) (f : Window → Window) :
    (s.modWindow r i f).pending = s.pending := rfl

@[simp] theorem State.modPass_time (s : State) (n : Nat) (f : Pass → Pass) : (s.modPass n f).time = s.time := rfl
@[simp] theorem State.modPass_units (s : State) (n : Nat) (f : Pass → Pass) : (s.modPass n f).units = s.units := rfl
@[simp] theorem State.modPass_poller (s : State) (n : Nat) (f : Pass → Pass) : (s.modPass n f).poller = s.poller := rfl
@[simp] theorem State.modPass_ests (s : State) (n : Nat) (f : Pass → Pass) : (s.modPass n f).ests = s.ests := rfl
@[simp] theorem State.modPass_book (s : State) (n : Nat) (f : Pass → Pass) :
    (s.modPass n f).book = { s.book with passes := s.book.passes.update n f } := rfl
@[simp] theorem State.modPass_boards (s : State) (n : Nat) (f : Pass → Pass) : (s.modPass n f).boards = s.boards := rfl
@[simp] theorem State.modPass_notices (s : State) (n : Nat) (f : Pass → Pass) :
    (s.modPass n f).notices = s.notices := rfl
@[simp] theorem State.modPass_port (s : State) (n : Nat) (f : Pass → Pass) : (s.modPass n f).port = s.port := rfl
@[simp] theorem State.modPass_orders (s : State) (n : Nat) (f : Pass → Pass) : (s.modPass n f).orders = s.orders := rfl
@[simp] theorem State.modPass_pending (s : State) (n : Nat) (f : Pass → Pass) :
    (s.modPass n f).pending = s.pending := rfl

@[simp] theorem State.modBoard_time (s : State) (a : Nat) (f : Board → Board) : (s.modBoard a f).time = s.time := rfl
@[simp] theorem State.modBoard_units (s : State) (a : Nat) (f : Board → Board) : (s.modBoard a f).units = s.units := rfl
@[simp] theorem State.modBoard_poller (s : State) (a : Nat) (f : Board → Board) :
    (s.modBoard a f).poller = s.poller := rfl
@[simp] theorem State.modBoard_ests (s : State) (a : Nat) (f : Board → Board) : (s.modBoard a f).ests = s.ests := rfl
@[simp] theorem State.modBoard_book (s : State) (a : Nat) (f : Board → Board) : (s.modBoard a f).book = s.book := rfl
@[simp] theorem State.modBoard_boards (s : State) (a : Nat) (f : Board → Board) :
    (s.modBoard a f).boards = { s.boards with table := s.boards.table.update a f } := rfl
@[simp] theorem State.modBoard_notices (s : State) (a : Nat) (f : Board → Board) :
    (s.modBoard a f).notices = s.notices := rfl
@[simp] theorem State.modBoard_port (s : State) (a : Nat) (f : Board → Board) : (s.modBoard a f).port = s.port := rfl
@[simp] theorem State.modBoard_orders (s : State) (a : Nat) (f : Board → Board) :
    (s.modBoard a f).orders = s.orders := rfl
@[simp] theorem State.modBoard_pending (s : State) (a : Nat) (f : Board → Board) :
    (s.modBoard a f).pending = s.pending := rfl

@[simp] theorem State.setSlot_time (s : State) (id : SlotId) (v : Slot) : (s.setSlot id v).time = s.time := rfl
@[simp] theorem State.setSlot_units (s : State) (id : SlotId) (v : Slot) : (s.setSlot id v).units = s.units := rfl
@[simp] theorem State.setSlot_poller (s : State) (id : SlotId) (v : Slot) : (s.setSlot id v).poller = s.poller := rfl
@[simp] theorem State.setSlot_ests (s : State) (id : SlotId) (v : Slot) : (s.setSlot id v).ests = s.ests := rfl
@[simp] theorem State.setSlot_book (s : State) (id : SlotId) (v : Slot) : (s.setSlot id v).book = s.book := rfl
@[simp] theorem State.setSlot_boards (s : State) (id : SlotId) (v : Slot) : (s.setSlot id v).boards = s.boards := rfl
@[simp] theorem State.setSlot_port (s : State) (id : SlotId) (v : Slot) : (s.setSlot id v).port = s.port := rfl
@[simp] theorem State.setSlot_orders (s : State) (id : SlotId) (v : Slot) : (s.setSlot id v).orders = s.orders := rfl
@[simp] theorem State.setSlot_pending (s : State) (id : SlotId) (v : Slot) : (s.setSlot id v).pending = s.pending := rfl
@[simp] theorem State.setSlot_edges (s : State) (id : SlotId) (v : Slot) :
    (s.setSlot id v).notices.edges = s.notices.edges := rfl
@[simp] theorem State.setSlot_sendList (s : State) (id : SlotId) (v : Slot) :
    (s.setSlot id v).notices.sendList = s.notices.sendList := rfl

@[simp] theorem State.setReceiver_time (v : Receiver) (s : State) : (s.setReceiver v).time = s.time := rfl
@[simp] theorem State.setReceiver_units (v : Receiver) (s : State) : (s.setReceiver v).units = s.units := rfl
@[simp] theorem State.setReceiver_poller (v : Receiver) (s : State) : (s.setReceiver v).poller = s.poller := rfl
@[simp] theorem State.setReceiver_ests (v : Receiver) (s : State) : (s.setReceiver v).ests = s.ests := rfl
@[simp] theorem State.setReceiver_book (v : Receiver) (s : State) : (s.setReceiver v).book = s.book := rfl
@[simp] theorem State.setReceiver_boards (v : Receiver) (s : State) : (s.setReceiver v).boards = s.boards := rfl
@[simp] theorem State.setReceiver_notices (v : Receiver) (s : State) : (s.setReceiver v).notices = s.notices := rfl
@[simp] theorem State.setReceiver_port (v : Receiver) (s : State) :
    (s.setReceiver v).port = { s.port with receiver := v } := rfl
@[simp] theorem State.setReceiver_orders (v : Receiver) (s : State) : (s.setReceiver v).orders = s.orders := rfl
@[simp] theorem State.setReceiver_pending (v : Receiver) (s : State) : (s.setReceiver v).pending = s.pending := rfl

@[simp] theorem State.popInput_time (s : State) : (s.popInput).time = s.time := rfl
@[simp] theorem State.popInput_units (s : State) : (s.popInput).units = s.units := rfl
@[simp] theorem State.popInput_poller (s : State) : (s.popInput).poller = s.poller := rfl
@[simp] theorem State.popInput_ests (s : State) : (s.popInput).ests = s.ests := rfl
@[simp] theorem State.popInput_book (s : State) : (s.popInput).book = s.book := rfl
@[simp] theorem State.popInput_boards (s : State) : (s.popInput).boards = s.boards := rfl
@[simp] theorem State.popInput_notices (s : State) : (s.popInput).notices = s.notices := rfl
@[simp] theorem State.popInput_port (s : State) : (s.popInput).port = { s.port with input := s.port.input.tail } := rfl
@[simp] theorem State.popInput_orders (s : State) : (s.popInput).orders = s.orders := rfl
@[simp] theorem State.popInput_pending (s : State) : (s.popInput).pending = s.pending := rfl

@[simp] theorem State.withPending_time (s : State) (cs : List Instr) : (s.withPending cs).time = s.time := rfl
@[simp] theorem State.withPending_units (s : State) (cs : List Instr) : (s.withPending cs).units = s.units := rfl
@[simp] theorem State.withPending_poller (s : State) (cs : List Instr) : (s.withPending cs).poller = s.poller := rfl
@[simp] theorem State.withPending_ests (s : State) (cs : List Instr) : (s.withPending cs).ests = s.ests := rfl
@[simp] theorem State.withPending_book (s : State) (cs : List Instr) : (s.withPending cs).book = s.book := rfl
@[simp] theorem State.withPending_boards (s : State) (cs : List Instr) : (s.withPending cs).boards = s.boards := rfl
@[simp] theorem State.withPending_notices (s : State) (cs : List Instr) : (s.withPending cs).notices = s.notices := rfl
@[simp] theorem State.withPending_port (s : State) (cs : List Instr) : (s.withPending cs).port = s.port := rfl
@[simp] theorem State.withPending_orders (s : State) (cs : List Instr) : (s.withPending cs).orders = s.orders := rfl
@[simp] theorem State.withPending_pending (s : State) (cs : List Instr) : (s.withPending cs).pending = cs := rfl

@[simp] theorem State.countDraw_time (s : State) : (s.countDraw).time = s.time := rfl
@[simp] theorem State.countDraw_units (s : State) : (s.countDraw).units = s.units := rfl
@[simp] theorem State.countDraw_poller (s : State) : (s.countDraw).poller = s.poller := rfl
@[simp] theorem State.countDraw_ests (s : State) : (s.countDraw).ests = s.ests := rfl
@[simp] theorem State.countDraw_book (s : State) : (s.countDraw).book = s.book := rfl
@[simp] theorem State.countDraw_boards (s : State) : (s.countDraw).boards = s.boards := rfl
@[simp] theorem State.countDraw_notices (s : State) : (s.countDraw).notices = s.notices := rfl
@[simp] theorem State.countDraw_port (s : State) : (s.countDraw).port = s.port := rfl
@[simp] theorem State.countDraw_orders (s : State) :
    (s.countDraw).orders = { s.orders with drawn := s.orders.drawn + 1 } := rfl
@[simp] theorem State.countDraw_pending (s : State) : (s.countDraw).pending = s.pending := rfl

@[simp] theorem setClosePassed_time (s : State) : (setClosePassed s).time = { s.time with closePassed := true } := rfl
@[simp] theorem setClosePassed_units (s : State) : (setClosePassed s).units = s.units := rfl
@[simp] theorem setClosePassed_poller (s : State) : (setClosePassed s).poller = s.poller := rfl
@[simp] theorem setClosePassed_ests (s : State) : (setClosePassed s).ests = s.ests := rfl
@[simp] theorem setClosePassed_book (s : State) : (setClosePassed s).book = s.book := rfl
@[simp] theorem setClosePassed_boards (s : State) : (setClosePassed s).boards = s.boards := rfl
@[simp] theorem setClosePassed_notices (s : State) : (setClosePassed s).notices = s.notices := rfl
@[simp] theorem setClosePassed_port (s : State) : (setClosePassed s).port = s.port := rfl
@[simp] theorem setClosePassed_orders (s : State) : (setClosePassed s).orders = s.orders := rfl
@[simp] theorem setClosePassed_pending (s : State) : (setClosePassed s).pending = s.pending := rfl

@[simp] theorem setMarks_units (rs : List Nat) (s : State) : (setMarks rs s).units = s.units := rfl
@[simp] theorem setMarks_poller (rs : List Nat) (s : State) : (setMarks rs s).poller = s.poller := rfl
@[simp] theorem setMarks_ests (rs : List Nat) (s : State) : (setMarks rs s).ests = s.ests := rfl
@[simp] theorem setMarks_book (rs : List Nat) (s : State) : (setMarks rs s).book = s.book := rfl
@[simp] theorem setMarks_boards (rs : List Nat) (s : State) : (setMarks rs s).boards = s.boards := rfl
@[simp] theorem setMarks_notices (rs : List Nat) (s : State) : (setMarks rs s).notices = s.notices := rfl
@[simp] theorem setMarks_port (rs : List Nat) (s : State) : (setMarks rs s).port = s.port := rfl
@[simp] theorem setMarks_orders (rs : List Nat) (s : State) : (setMarks rs s).orders = s.orders := rfl
@[simp] theorem setMarks_pending (rs : List Nat) (s : State) : (setMarks rs s).pending = s.pending := rfl

@[simp] theorem stepClock_units (s : State) : (stepClock s).units = s.units := rfl
@[simp] theorem stepClock_poller (s : State) : (stepClock s).poller = s.poller := rfl
@[simp] theorem stepClock_ests (s : State) : (stepClock s).ests = s.ests := rfl
@[simp] theorem stepClock_book (s : State) : (stepClock s).book = s.book := rfl
@[simp] theorem stepClock_boards (s : State) : (stepClock s).boards = s.boards := rfl
@[simp] theorem stepClock_notices (s : State) : (stepClock s).notices = s.notices := rfl
@[simp] theorem stepClock_port (s : State) : (stepClock s).port = s.port := rfl
@[simp] theorem stepClock_orders (s : State) : (stepClock s).orders = s.orders := rfl
@[simp] theorem stepClock_pending (s : State) : (stepClock s).pending = s.pending := rfl

@[simp] theorem countReference_units (s : State) : (countReference s).units = s.units := rfl
@[simp] theorem countReference_poller (s : State) : (countReference s).poller = s.poller := rfl
@[simp] theorem countReference_ests (s : State) : (countReference s).ests = s.ests := rfl
@[simp] theorem countReference_book (s : State) : (countReference s).book = s.book := rfl
@[simp] theorem countReference_notices (s : State) : (countReference s).notices = s.notices := rfl
@[simp] theorem countReference_port (s : State) : (countReference s).port = s.port := rfl
@[simp] theorem countReference_orders (s : State) : (countReference s).orders = s.orders := rfl
@[simp] theorem countReference_pending (s : State) : (countReference s).pending = s.pending := rfl

/-- The pop of an empty input queue changes nothing. -/
theorem State.popInput_nil (s : State) (h : s.port.input = []) : s.popInput = s := by
  cases s with
  | mk time units poller ests book boards notices port orders pending =>
    cases port
    simp_all [State.popInput]

end Sys2Proof.Machine
end

