-- ==== Sys2Proof/Laws/Table.lean ====
section
/-! SUPPORT. What the operations on tables do: reading after each of them, and the canonical form they keep. -/

namespace Sys2Proof

variable {α β : Type}

/-! ### Reading -/

@[simp] theorem Table.find_nil (k : Nat) : Table.find ([] : Table α) k = none := rfl

@[simp] theorem Table.find_put (t : Table α) (k j : Nat) (x : α) :
    (t.put k x).find j = if k = j then some x else t.find j := by
  induction t with
  | nil => simp [Table.put, Table.find]
  | cons y t ih =>
    obtain ⟨a, v⟩ := y
    simp only [Table.put]
    split
    · simp only [Table.find]
    · split
      · rename_i h
        subst h
        simp only [Table.find]
        split <;> rfl
      · rename_i h
        simp only [Table.find, ih]
        by_cases hj : a = j
        · have : k ≠ j := by intro hk; exact h (by omega)
          simp [hj, this]
        · simp [hj]

@[simp] theorem Table.find_remove (t : Table α) (k j : Nat) :
    (t.remove k).find j = if k = j then none else t.find j := by
  induction t with
  | nil => simp [Table.remove]
  | cons y t ih =>
    obtain ⟨a, v⟩ := y
    simp only [Table.remove]
    by_cases ha : a = k
    · subst ha
      simp only [if_true, ih, Table.find]
      split <;> rfl
    · simp only [if_neg ha, Table.find, ih]
      by_cases hj : a = j
      · have : k ≠ j := by omega
        simp [hj, this]
      · simp [hj]

@[simp] theorem Table.find_update (t : Table α) (k j : Nat) (f : α → α) :
    (t.update k f).find j = if k = j then (t.find j).map f else t.find j := by
  induction t with
  | nil => simp [Table.update]
  | cons y t ih =>
    obtain ⟨a, v⟩ := y
    simp only [Table.update]
    by_cases ha : a = k
    · subst ha
      simp only [if_true, Table.find, ih]
      by_cases hj : a = j <;> simp [hj]
    · simp only [if_neg ha, Table.find, ih]
      by_cases hj : a = j
      · have : k ≠ j := by omega
        simp [hj, this]
      · simp [hj]

@[simp] theorem Table.find_each (t : Table α) (f : Nat → α → β) (k : Nat) :
    (t.each f).find k = (t.find k).map (f k) := by
  induction t with
  | nil => rfl
  | cons y t ih =>
    obtain ⟨a, v⟩ := y
    simp only [Table.each, Table.find, ih]
    by_cases h : a = k
    · subst h; simp
    · simp [h]

/-! ### Keys and the canonical form -/

@[simp] theorem Table.keys_update (t : Table α) (k : Nat) (f : α → α) : (t.update k f).keys = t.keys := by
  induction t with
  | nil => rfl
  | cons y t ih =>
    obtain ⟨a, v⟩ := y
    simp only [Table.update]
    by_cases ha : a = k <;> simp [ha, Table.keys, ih]

@[simp] theorem Table.keys_each (t : Table α) (f : Nat → α → β) : (t.each f).keys = t.keys := by
  induction t with
  | nil => rfl
  | cons y t ih => obtain ⟨a, v⟩ := y; simp [Table.each, Table.keys, ih]

theorem Table.mem_keys_put (t : Table α) (k j : Nat) (x : α) (h : j ∈ (t.put k x).keys) : j = k ∨ j ∈ t.keys := by
  induction t with
  | nil => simp [Table.put, Table.keys] at h; exact Or.inl h
  | cons y t ih =>
    obtain ⟨a, v⟩ := y
    simp only [Table.put] at h
    split at h
    · simpa [Table.keys] using h
    · split at h
      · simp only [Table.keys, List.mem_cons] at h ⊢
        rcases h with h | h
        · exact Or.inl h
        · exact Or.inr (Or.inr h)
      · simp only [Table.keys, List.mem_cons] at h ⊢
        rcases h with h | h
        · exact Or.inr (Or.inl h)
        · rcases ih h with h | h
          · exact Or.inl h
          · exact Or.inr (Or.inr h)

theorem Table.wf_put (t : Table α) (k : Nat) (x : α) (h : t.wf) : (t.put k x).wf := by
  induction t with
  | nil => simp [Table.put, Table.wf, Table.keys]
  | cons y t ih =>
    obtain ⟨a, v⟩ := y
    simp only [Table.wf, Table.keys, List.pairwise_cons] at h ih
    simp only [Table.put]
    split
    · rename_i hk
      simp only [Table.wf, Table.keys, List.pairwise_cons, List.mem_cons]
      refine ⟨?_, h⟩
      rintro j (hj | hj)
      · omega
      · exact Nat.lt_trans hk (h.1 j hj)
    · split
      · rename_i hk
        subst hk
        simpa only [Table.wf, Table.keys, List.pairwise_cons] using h
      · simp only [Table.wf, Table.keys, List.pairwise_cons]
        refine ⟨?_, ih h.2⟩
        intro j hj
        rcases Table.mem_keys_put _ _ _ _ hj with hj | hj
        · omega
        · exact h.1 j hj

theorem Table.mem_keys_remove (t : Table α) (k j : Nat) (h : j ∈ (t.remove k).keys) : j ∈ t.keys := by
  induction t with
  | nil => exact h
  | cons y t ih =>
    obtain ⟨a, v⟩ := y
    simp only [Table.remove] at h
    split at h
    · exact List.mem_cons_of_mem _ (ih h)
    · simp only [Table.keys, List.mem_cons] at h ⊢
      exact h.imp id ih

theorem Table.wf_remove (t : Table α) (k : Nat) (h : t.wf) : (t.remove k).wf := by
  induction t with
  | nil => exact h
  | cons y t ih =>
    obtain ⟨a, v⟩ := y
    simp only [Table.wf, Table.keys, List.pairwise_cons] at h ih
    simp only [Table.remove]
    split
    · exact ih h.2
    · simp only [Table.wf, Table.keys, List.pairwise_cons]
      exact ⟨fun j hj => h.1 j (Table.mem_keys_remove _ _ _ hj), ih h.2⟩

@[simp] theorem Table.wf_update (t : Table α) (k : Nat) (f : α → α) : (t.update k f).wf ↔ t.wf := by
  simp [Table.wf]

@[simp] theorem Table.wf_each (t : Table α) (f : Nat → α → β) : (t.each f).wf ↔ t.wf := by
  simp [Table.wf]

/-! ### Records -/

/-- A record after an update is an old one, changed if its key is the one updated. -/
theorem Table.mem_update (t : Table α) (k : Nat) (f : α → α) (x : Nat × α) (h : x ∈ t.update k f) :
    ∃ y ∈ t, y.1 = x.1 ∧ x.2 = if y.1 = k then f y.2 else y.2 := by
  induction t with
  | nil => cases h
  | cons y t ih =>
    obtain ⟨a, v⟩ := y
    simp only [Table.update, List.mem_cons] at h
    rcases h with h | h
    · refine ⟨(a, v), List.mem_cons_self, ?_⟩
      by_cases ha : a = k <;> simp [ha] at h <;> subst h <;> simp [ha]
    · obtain ⟨y, hy, hyx⟩ := ih h
      exact ⟨y, List.mem_cons_of_mem _ hy, hyx⟩

/-- A record after a change of every record is an old one, changed. -/
theorem Table.mem_each (t : Table α) (f : Nat → α → β) (x : Nat × β) (h : x ∈ t.each f) :
    ∃ y ∈ t, y.1 = x.1 ∧ x.2 = f y.1 y.2 := by
  induction t with
  | nil => cases h
  | cons y t ih =>
    obtain ⟨a, v⟩ := y
    simp only [Table.each, List.mem_cons] at h
    rcases h with h | h
    · subst h; exact ⟨(a, v), List.mem_cons_self, rfl, rfl⟩
    · obtain ⟨y, hy, hyx⟩ := ih h
      exact ⟨y, List.mem_cons_of_mem _ hy, hyx⟩

/-- A record after a put is the record put or an old one. -/
theorem Table.mem_put (t : Table α) (k : Nat) (v : α) (x : Nat × α) (h : x ∈ t.put k v) : x = (k, v) ∨ x ∈ t := by
  induction t with
  | nil => simp [Table.put] at h; exact Or.inl h
  | cons y t ih =>
    obtain ⟨a, w⟩ := y
    simp only [Table.put] at h
    split at h
    · simpa using h
    · split at h
      · simp only [List.mem_cons] at h ⊢
        exact h.imp id Or.inr
      · simp only [List.mem_cons] at h ⊢
        rcases h with h | h
        · exact Or.inr (Or.inl h)
        · exact (ih h).imp id Or.inr

/-- A record after a removal is an old one. -/
theorem Table.mem_remove (t : Table α) (k : Nat) (x : Nat × α) (h : x ∈ t.remove k) : x ∈ t := by
  induction t with
  | nil => exact h
  | cons y t ih =>
    obtain ⟨a, w⟩ := y
    simp only [Table.remove] at h
    split at h
    · exact List.mem_cons_of_mem _ (ih h)
    · simp only [List.mem_cons] at h ⊢
      exact h.imp id ih

/-- A record that is found stands in the table. -/
theorem Table.mem_of_find (t : Table α) (k : Nat) (v : α) (h : t.find k = some v) : (k, v) ∈ t := by
  induction t with
  | nil => cases h
  | cons y t ih =>
    obtain ⟨a, w⟩ := y
    simp only [Table.find] at h
    split at h
    · rename_i ha
      simp only [Option.some.injEq] at h
      subst ha h
      exact List.mem_cons_self
    · exact List.mem_cons_of_mem _ (ih h)

theorem Table.key_mem (t : Table α) (x : Nat × α) (h : x ∈ t) : x.1 ∈ t.keys := by
  induction t with
  | nil => cases h
  | cons y t ih =>
    obtain ⟨a, w⟩ := y
    simp only [List.mem_cons] at h
    simp only [Table.keys, List.mem_cons]
    rcases h with h | h
    · exact Or.inl (by rw [h])
    · exact Or.inr (ih h)

/-- In canonical form every record is found at its key. -/
theorem Table.find_of_mem (t : Table α) (h : t.wf) (x : Nat × α) (hx : x ∈ t) : t.find x.1 = some x.2 := by
  induction t with
  | nil => cases hx
  | cons y t ih =>
    obtain ⟨a, w⟩ := y
    simp only [Table.wf, Table.keys, List.pairwise_cons] at h ih
    simp only [List.mem_cons] at hx
    rcases hx with hx | hx
    · subst hx; simp [Table.find]
    · have hlt := h.1 x.1 (Table.key_mem _ _ hx)
      have : a ≠ x.1 := by omega
      simp [Table.find, this, ih h.2 hx]

end Sys2Proof
end

