-- ==== Sys2Proof/Laws/Keeps.lean ====
section
/-! SUPPORT. For each shared operation, what it leaves unchanged: cited (by simp) in place of unfolding it. -/

namespace Sys2Proof.Machine

/-- A projection that each step of a fold keeps is kept by the fold. -/
theorem foldl_keeps {α β : Type} (p : State → β) (f : State → α → State) (h : ∀ s x, p (f s x) = p s)
    (xs : List α) (s : State) : p (xs.foldl f s) = p s := by
  induction xs generalizing s with
  | nil => rfl
  | cons x xs ih => rw [List.foldl_cons, ih, h]

/-! ### Notices and grants (R158 to R164, R175, R176) -/

@[simp] theorem grantReply_keeps (s : State) :
    (grantReply s).time = s.time ∧ (grantReply s).units = s.units ∧ (grantReply s).poller = s.poller ∧
    (grantReply s).ests = s.ests ∧ (grantReply s).book = s.book ∧ (grantReply s).boards = s.boards ∧
    (grantReply s).notices = s.notices ∧ (grantReply s).orders = s.orders ∧ (grantReply s).pending = s.pending ∧
    (grantReply s).port.receiver = s.port.receiver ∧ (grantReply s).port.input = s.port.input ∧
    (grantReply s).port.restartPending = s.port.restartPending ∧ (grantReply s).port.crcErrors = s.port.crcErrors ∧
    (grantReply s).port.timeouts = s.port.timeouts ∧ (grantReply s).port.overruns = s.port.overruns ∧
    (grantReply s).port.sending = s.port.sending := by
  generalize h : grantReply s = t
  unfold grantReply at h
  try dsimp only at h
  (repeat' split at h) <;> subst h <;> simp

@[simp] theorem grantNotice_keeps (s : State) :
    (grantNotice s).time = s.time ∧ (grantNotice s).units = s.units ∧ (grantNotice s).poller = s.poller ∧
    (grantNotice s).ests = s.ests ∧ (grantNotice s).book = s.book ∧ (grantNotice s).boards = s.boards ∧
    (grantNotice s).orders = s.orders ∧ (grantNotice s).pending = s.pending ∧
    (grantNotice s).notices.edges = s.notices.edges ∧ (grantNotice s).port.receiver = s.port.receiver ∧
    (grantNotice s).port.input = s.port.input ∧ (grantNotice s).port.restartPending = s.port.restartPending ∧
    (grantNotice s).port.crcErrors = s.port.crcErrors ∧ (grantNotice s).port.timeouts = s.port.timeouts ∧
    (grantNotice s).port.overruns = s.port.overruns ∧ (grantNotice s).port.sending = s.port.sending := by
  generalize h : grantNotice s = t
  unfold grantNotice at h
  try dsimp only at h
  (repeat' split at h) <;> subst h <;> simp

@[simp] theorem grantPlace_keeps (s : State) :
    (grantPlace s).time = s.time ∧ (grantPlace s).units = s.units ∧ (grantPlace s).poller = s.poller ∧
    (grantPlace s).ests = s.ests ∧ (grantPlace s).book = s.book ∧ (grantPlace s).boards = s.boards ∧
    (grantPlace s).orders = s.orders ∧ (grantPlace s).pending = s.pending ∧
    (grantPlace s).notices.edges = s.notices.edges ∧ (grantPlace s).port.receiver = s.port.receiver ∧
    (grantPlace s).port.input = s.port.input ∧ (grantPlace s).port.restartPending = s.port.restartPending ∧
    (grantPlace s).port.crcErrors = s.port.crcErrors ∧ (grantPlace s).port.timeouts = s.port.timeouts ∧
    (grantPlace s).port.overruns = s.port.overruns ∧ (grantPlace s).port.sending = s.port.sending := by
  generalize h : grantPlace s = t
  unfold grantPlace at h
  try dsimp only at h
  (repeat' split at h) <;> subst h <;> simp

@[simp] theorem enterReply_keeps (rcd : Record) (s : State) :
    (enterReply rcd s).time = s.time ∧ (enterReply rcd s).units = s.units ∧ (enterReply rcd s).poller = s.poller ∧
    (enterReply rcd s).ests = s.ests ∧ (enterReply rcd s).book = s.book ∧ (enterReply rcd s).boards = s.boards ∧
    (enterReply rcd s).notices = s.notices ∧ (enterReply rcd s).orders = s.orders ∧
    (enterReply rcd s).pending = s.pending ∧ (enterReply rcd s).port.receiver = s.port.receiver ∧
    (enterReply rcd s).port.input = s.port.input ∧ (enterReply rcd s).port.restartPending = s.port.restartPending ∧
    (enterReply rcd s).port.crcErrors = s.port.crcErrors ∧ (enterReply rcd s).port.timeouts = s.port.timeouts ∧
    (enterReply rcd s).port.overruns = s.port.overruns ∧ (enterReply rcd s).port.sending = s.port.sending := by
  generalize h : enterReply rcd s = t
  unfold enterReply at h
  try dsimp only at h
  (repeat' split at h) <;> subst h <;> simp

@[simp] theorem joinSendList_keeps (id : SlotId) (s : State) :
    (joinSendList id s).time = s.time ∧ (joinSendList id s).units = s.units ∧ (joinSendList id s).poller = s.poller ∧
    (joinSendList id s).ests = s.ests ∧ (joinSendList id s).book = s.book ∧ (joinSendList id s).boards = s.boards ∧
    (joinSendList id s).orders = s.orders ∧ (joinSendList id s).pending = s.pending ∧
    (joinSendList id s).notices.edges = s.notices.edges ∧ (joinSendList id s).port.receiver = s.port.receiver ∧
    (joinSendList id s).port.input = s.port.input ∧ (joinSendList id s).port.restartPending = s.port.restartPending ∧
    (joinSendList id s).port.crcErrors = s.port.crcErrors ∧ (joinSendList id s).port.timeouts = s.port.timeouts ∧
    (joinSendList id s).port.overruns = s.port.overruns ∧ (joinSendList id s).port.sending = s.port.sending := by
  generalize h : joinSendList id s = t
  unfold joinSendList at h
  try dsimp only at h
  (repeat' split at h) <;> subst h <;> simp

@[simp] theorem leaveSendList_keeps (id : SlotId) (s : State) :
    (leaveSendList id s).time = s.time ∧ (leaveSendList id s).units = s.units ∧
    (leaveSendList id s).poller = s.poller ∧ (leaveSendList id s).ests = s.ests ∧
    (leaveSendList id s).book = s.book ∧ (leaveSendList id s).boards = s.boards ∧
    (leaveSendList id s).port = s.port ∧ (leaveSendList id s).orders = s.orders ∧
    (leaveSendList id s).pending = s.pending ∧ (leaveSendList id s).notices.edges = s.notices.edges ∧
    (leaveSendList id s).notices.slots = s.notices.slots := by
  generalize h : leaveSendList id s = t
  unfold leaveSendList at h
  try dsimp only at h
  subst h
  simp

@[simp] theorem setPending_keeps (id : SlotId) (level : Bool) (detail : Nat) (s : State) :
    (setPending id level detail s).time = s.time ∧ (setPending id level detail s).units = s.units ∧
    (setPending id level detail s).poller = s.poller ∧ (setPending id level detail s).ests = s.ests ∧
    (setPending id level detail s).book = s.book ∧ (setPending id level detail s).boards = s.boards ∧
    (setPending id level detail s).orders = s.orders ∧ (setPending id level detail s).pending = s.pending ∧
    (setPending id level detail s).notices.edges = s.notices.edges ∧
    (setPending id level detail s).port.receiver = s.port.receiver ∧
    (setPending id level detail s).port.input = s.port.input ∧
    (setPending id level detail s).port.restartPending = s.port.restartPending ∧
    (setPending id level detail s).port.crcErrors = s.port.crcErrors ∧
    (setPending id level detail s).port.timeouts = s.port.timeouts ∧
    (setPending id level detail s).port.overruns = s.port.overruns ∧
    (setPending id level detail s).port.sending = s.port.sending := by
  generalize h : setPending id level detail s = t
  unfold setPending at h
  try dsimp only at h
  (repeat' split at h) <;> subst h <;> simp

@[simp] theorem reportLevel_keeps (cls : NoteClass) (src : Nat) (level : Bool) (detail : Nat) (s : State) :
    (reportLevel cls src level detail s).time = s.time ∧ (reportLevel cls src level detail s).units = s.units ∧
    (reportLevel cls src level detail s).poller = s.poller ∧ (reportLevel cls src level detail s).ests = s.ests ∧
    (reportLevel cls src level detail s).book = s.book ∧ (reportLevel cls src level detail s).boards = s.boards ∧
    (reportLevel cls src level detail s).orders = s.orders ∧
    (reportLevel cls src level detail s).pending = s.pending ∧
    (reportLevel cls src level detail s).notices.edges = s.notices.edges ∧
    (reportLevel cls src level detail s).port.receiver = s.port.receiver ∧
    (reportLevel cls src level detail s).port.input = s.port.input ∧
    (reportLevel cls src level detail s).port.restartPending = s.port.restartPending ∧
    (reportLevel cls src level detail s).port.crcErrors = s.port.crcErrors ∧
    (reportLevel cls src level detail s).port.timeouts = s.port.timeouts ∧
    (reportLevel cls src level detail s).port.overruns = s.port.overruns ∧
    (reportLevel cls src level detail s).port.sending = s.port.sending := by
  generalize h : reportLevel cls src level detail s = t
  unfold reportLevel at h
  try dsimp only at h
  (repeat' split at h) <;> subst h <;> simp

@[simp] theorem reportEvent_keeps (cls : NoteClass) (src detail : Nat) (s : State) :
    (reportEvent cls src detail s).time = s.time ∧ (reportEvent cls src detail s).units = s.units ∧
    (reportEvent cls src detail s).poller = s.poller ∧ (reportEvent cls src detail s).ests = s.ests ∧
    (reportEvent cls src detail s).book = s.book ∧ (reportEvent cls src detail s).boards = s.boards ∧
    (reportEvent cls src detail s).orders = s.orders ∧ (reportEvent cls src detail s).pending = s.pending ∧
    (reportEvent cls src detail s).notices.edges = s.notices.edges ∧
    (reportEvent cls src detail s).port.receiver = s.port.receiver ∧
    (reportEvent cls src detail s).port.input = s.port.input ∧
    (reportEvent cls src detail s).port.restartPending = s.port.restartPending ∧
    (reportEvent cls src detail s).port.crcErrors = s.port.crcErrors ∧
    (reportEvent cls src detail s).port.timeouts = s.port.timeouts ∧
    (reportEvent cls src detail s).port.overruns = s.port.overruns ∧
    (reportEvent cls src detail s).port.sending = s.port.sending := by
  generalize h : reportEvent cls src detail s = t
  unfold reportEvent at h
  try dsimp only at h
  subst h
  simp

@[simp] theorem rideGone_keeps (r : Nat) (s : State) :
    (rideGone r s).time = s.time ∧ (rideGone r s).units = s.units ∧ (rideGone r s).poller = s.poller ∧
    (rideGone r s).ests = s.ests ∧ (rideGone r s).book = s.book ∧ (rideGone r s).boards = s.boards ∧
    (rideGone r s).orders = s.orders ∧ (rideGone r s).pending = s.pending ∧
    (rideGone r s).notices.edges = s.notices.edges ∧ (rideGone r s).port.receiver = s.port.receiver ∧
    (rideGone r s).port.input = s.port.input ∧ (rideGone r s).port.restartPending = s.port.restartPending ∧
    (rideGone r s).port.crcErrors = s.port.crcErrors ∧ (rideGone r s).port.timeouts = s.port.timeouts ∧
    (rideGone r s).port.overruns = s.port.overruns ∧ (rideGone r s).port.sending = s.port.sending := by
  unfold rideGone
  refine ⟨?_, ?_, ?_, ?_, ?_, ?_, ?_, ?_, ?_, ?_, ?_, ?_, ?_, ?_, ?_, ?_⟩
  · exact foldl_keeps (fun s => s.time) _ (fun s x => by simp) _ s
  · exact foldl_keeps (fun s => s.units) _ (fun s x => by simp) _ s
  · exact foldl_keeps (fun s => s.poller) _ (fun s x => by simp) _ s
  · exact foldl_keeps (fun s => s.ests) _ (fun s x => by simp) _ s
  · exact foldl_keeps (fun s => s.book) _ (fun s x => by simp) _ s
  · exact foldl_keeps (fun s => s.boards) _ (fun s x => by simp) _ s
  · exact foldl_keeps (fun s => s.orders) _ (fun s x => by simp) _ s
  · exact foldl_keeps (fun s => s.pending) _ (fun s x => by simp) _ s
  · exact foldl_keeps (fun s => s.notices.edges) _ (fun s x => by simp) _ s
  · exact foldl_keeps (fun s => s.port.receiver) _ (fun s x => by simp) _ s
  · exact foldl_keeps (fun s => s.port.input) _ (fun s x => by simp) _ s
  · exact foldl_keeps (fun s => s.port.restartPending) _ (fun s x => by simp) _ s
  · exact foldl_keeps (fun s => s.port.crcErrors) _ (fun s x => by simp) _ s
  · exact foldl_keeps (fun s => s.port.timeouts) _ (fun s x => by simp) _ s
  · exact foldl_keeps (fun s => s.port.overruns) _ (fun s x => by simp) _ s
  · exact foldl_keeps (fun s => s.port.sending) _ (fun s x => by simp) _ s

@[simp] theorem boardGone_keeps (a : Nat) (s : State) :
    (boardGone a s).time = s.time ∧ (boardGone a s).units = s.units ∧ (boardGone a s).poller = s.poller ∧
    (boardGone a s).ests = s.ests ∧ (boardGone a s).book = s.book ∧ (boardGone a s).boards = s.boards ∧
    (boardGone a s).orders = s.orders ∧ (boardGone a s).pending = s.pending ∧
    (boardGone a s).notices.edges = s.notices.edges ∧ (boardGone a s).port.receiver = s.port.receiver ∧
    (boardGone a s).port.input = s.port.input ∧ (boardGone a s).port.restartPending = s.port.restartPending ∧
    (boardGone a s).port.crcErrors = s.port.crcErrors ∧ (boardGone a s).port.timeouts = s.port.timeouts ∧
    (boardGone a s).port.overruns = s.port.overruns ∧ (boardGone a s).port.sending = s.port.sending := by
  generalize h : boardGone a s = t
  unfold boardGone at h
  try dsimp only at h
  subst h
  simp

/-! ### Boards (R140 to R145, R152, R155) -/

@[simp] theorem blinkRide_keeps (r : Nat) (s : State) :
    (blinkRide r s).time = s.time ∧ (blinkRide r s).units = s.units ∧ (blinkRide r s).poller = s.poller ∧
    (blinkRide r s).ests = s.ests ∧ (blinkRide r s).book = s.book ∧ (blinkRide r s).notices = s.notices ∧
    (blinkRide r s).port = s.port ∧ (blinkRide r s).orders = s.orders ∧ (blinkRide r s).pending = s.pending := by
  generalize h : blinkRide r s = t
  unfold blinkRide at h
  try dsimp only at h
  subst h
  simp

@[simp] theorem judgeBoard_keeps (a : Nat) (s : State) :
    (judgeBoard a s).time = s.time ∧ (judgeBoard a s).units = s.units ∧ (judgeBoard a s).poller = s.poller ∧
    (judgeBoard a s).ests = s.ests ∧ (judgeBoard a s).book = s.book ∧ (judgeBoard a s).orders = s.orders ∧
    (judgeBoard a s).pending = s.pending ∧ (judgeBoard a s).notices.edges = s.notices.edges ∧
    (judgeBoard a s).port.receiver = s.port.receiver ∧ (judgeBoard a s).port.input = s.port.input ∧
    (judgeBoard a s).port.restartPending = s.port.restartPending ∧
    (judgeBoard a s).port.crcErrors = s.port.crcErrors ∧ (judgeBoard a s).port.timeouts = s.port.timeouts ∧
    (judgeBoard a s).port.overruns = s.port.overruns ∧ (judgeBoard a s).port.sending = s.port.sending := by
  generalize h : judgeBoard a s = t
  unfold judgeBoard at h
  try dsimp only at h
  (repeat' split at h) <;> subst h <;> simp

@[simp] theorem takePresence_keeps (a : Nat) (f : Board → Board) (s : State) :
    (takePresence a f s).time = s.time ∧ (takePresence a f s).units = s.units ∧
    (takePresence a f s).poller = s.poller ∧ (takePresence a f s).ests = s.ests ∧
    (takePresence a f s).book = s.book ∧ (takePresence a f s).orders = s.orders ∧
    (takePresence a f s).pending = s.pending ∧ (takePresence a f s).notices.edges = s.notices.edges ∧
    (takePresence a f s).port.receiver = s.port.receiver ∧ (takePresence a f s).port.input = s.port.input ∧
    (takePresence a f s).port.restartPending = s.port.restartPending ∧
    (takePresence a f s).port.crcErrors = s.port.crcErrors ∧ (takePresence a f s).port.timeouts = s.port.timeouts ∧
    (takePresence a f s).port.overruns = s.port.overruns ∧ (takePresence a f s).port.sending = s.port.sending := by
  generalize h : takePresence a f s = t
  unfold takePresence at h
  try dsimp only at h
  (repeat' split at h) <;> subst h <;> simp

@[simp] theorem startPass_keeps (s : State) :
    (startPass s).time = s.time ∧ (startPass s).units = s.units ∧ (startPass s).poller = s.poller ∧
    (startPass s).ests = s.ests ∧ (startPass s).book = s.book ∧ (startPass s).notices = s.notices ∧
    (startPass s).port = s.port ∧ (startPass s).orders = s.orders ∧ (startPass s).pending = s.pending := by
  generalize h : startPass s = t
  unfold startPass at h
  try dsimp only at h
  (repeat' split at h) <;> subst h <;> simp

@[simp] theorem endPass_keeps (s : State) :
    (endPass s).time = s.time ∧ (endPass s).units = s.units ∧ (endPass s).poller = s.poller ∧
    (endPass s).ests = s.ests ∧ (endPass s).book = s.book ∧ (endPass s).notices = s.notices ∧
    (endPass s).port = s.port ∧ (endPass s).orders = s.orders ∧ (endPass s).pending = s.pending := by
  generalize h : endPass s = t
  unfold endPass at h
  try dsimp only at h
  (repeat' split at h) <;> subst h <;> simp

@[simp] theorem chooseNext_keeps (s : State) :
    (chooseNext s).time = s.time ∧ (chooseNext s).units = s.units ∧ (chooseNext s).poller = s.poller ∧
    (chooseNext s).ests = s.ests ∧ (chooseNext s).book = s.book ∧ (chooseNext s).notices = s.notices ∧
    (chooseNext s).port = s.port ∧ (chooseNext s).orders = s.orders ∧ (chooseNext s).pending = s.pending := by
  generalize h : chooseNext s = t
  unfold chooseNext at h
  try dsimp only at h
  (repeat' split at h) <;> subst h <;> simp

@[simp] theorem abandonFrame_keeps (a : Nat) (s : State) :
    (abandonFrame a s).time = s.time ∧ (abandonFrame a s).units = s.units ∧ (abandonFrame a s).poller = s.poller ∧
    (abandonFrame a s).ests = s.ests ∧ (abandonFrame a s).book = s.book ∧ (abandonFrame a s).notices = s.notices ∧
    (abandonFrame a s).port = s.port ∧ (abandonFrame a s).orders = s.orders ∧ (abandonFrame a s).pending = s.pending := by
  generalize h : abandonFrame a s = t
  unfold abandonFrame at h
  try dsimp only at h
  (repeat' split at h) <;> subst h <;> simp

@[simp] theorem passOver_keeps (a : Nat) (s : State) :
    (passOver a s).time = s.time ∧ (passOver a s).units = s.units ∧ (passOver a s).poller = s.poller ∧
    (passOver a s).ests = s.ests ∧ (passOver a s).book = s.book ∧ (passOver a s).notices = s.notices ∧
    (passOver a s).port = s.port ∧ (passOver a s).orders = s.orders ∧ (passOver a s).pending = s.pending := by
  generalize h : passOver a s = t
  unfold passOver at h
  try dsimp only at h
  (repeat' split at h) <;> subst h <;> simp

@[simp] theorem intervalExpiry_keeps (s : State) :
    (intervalExpiry s).time = s.time ∧ (intervalExpiry s).units = s.units ∧ (intervalExpiry s).poller = s.poller ∧
    (intervalExpiry s).ests = s.ests ∧ (intervalExpiry s).book = s.book ∧ (intervalExpiry s).notices = s.notices ∧
    (intervalExpiry s).port = s.port ∧ (intervalExpiry s).orders = s.orders ∧ (intervalExpiry s).pending = s.pending := by
  generalize h : intervalExpiry s = t
  unfold intervalExpiry at h
  try dsimp only at h
  (repeat' split at h) <;> subst h <;> simp

@[simp] theorem passStartDue_keeps (s : State) :
    (passStartDue s).time = s.time ∧ (passStartDue s).units = s.units ∧ (passStartDue s).poller = s.poller ∧
    (passStartDue s).ests = s.ests ∧ (passStartDue s).book = s.book ∧ (passStartDue s).notices = s.notices ∧
    (passStartDue s).port = s.port ∧ (passStartDue s).orders = s.orders ∧ (passStartDue s).pending = s.pending := by
  generalize h : passStartDue s = t
  unfold passStartDue at h
  try dsimp only at h
  (repeat' split at h) <;> subst h <;> simp

@[simp] theorem reservedWindowClose_keeps (s : State) :
    (reservedWindowClose s).time = s.time ∧ (reservedWindowClose s).units = s.units ∧
    (reservedWindowClose s).poller = s.poller ∧ (reservedWindowClose s).ests = s.ests ∧
    (reservedWindowClose s).book = s.book ∧ (reservedWindowClose s).notices = s.notices ∧
    (reservedWindowClose s).port = s.port ∧ (reservedWindowClose s).orders = s.orders ∧
    (reservedWindowClose s).pending = s.pending := by
  generalize h : reservedWindowClose s = t
  unfold reservedWindowClose at h
  try dsimp only at h
  (repeat' split at h) <;> subst h <;> simp

@[simp] theorem countOverrides_keeps (s : State) :
    (countOverrides s).time = s.time ∧ (countOverrides s).units = s.units ∧ (countOverrides s).poller = s.poller ∧
    (countOverrides s).ests = s.ests ∧ (countOverrides s).book = s.book ∧ (countOverrides s).notices = s.notices ∧
    (countOverrides s).port = s.port ∧ (countOverrides s).orders = s.orders ∧ (countOverrides s).pending = s.pending := by
  generalize h : countOverrides s = t
  unfold countOverrides at h
  try dsimp only at h
  subst h
  simp

@[simp] theorem expireOverride_keeps (a l : Nat) (s : State) :
    (expireOverride a l s).time = s.time ∧ (expireOverride a l s).units = s.units ∧
    (expireOverride a l s).poller = s.poller ∧ (expireOverride a l s).ests = s.ests ∧
    (expireOverride a l s).book = s.book ∧ (expireOverride a l s).notices = s.notices ∧
    (expireOverride a l s).port = s.port ∧ (expireOverride a l s).orders = s.orders ∧
    (expireOverride a l s).pending = s.pending := by
  generalize h : expireOverride a l s = t
  unfold expireOverride at h
  try dsimp only at h
  subst h
  simp

@[simp] theorem sendLine_keeps (a n : Nat) (s : State) :
    (sendLine a n s).time = s.time ∧ (sendLine a n s).units = s.units ∧ (sendLine a n s).poller = s.poller ∧
    (sendLine a n s).ests = s.ests ∧ (sendLine a n s).book = s.book ∧ (sendLine a n s).notices = s.notices ∧
    (sendLine a n s).port = s.port ∧ (sendLine a n s).orders = s.orders ∧ (sendLine a n s).pending = s.pending := by
  generalize h : sendLine a n s = t
  unfold sendLine at h
  try dsimp only at h
  (repeat' split at h) <;> subst h <;> simp

@[simp] theorem sendNextLine_keeps (s : State) :
    (sendNextLine s).time = s.time ∧ (sendNextLine s).units = s.units ∧ (sendNextLine s).poller = s.poller ∧
    (sendNextLine s).ests = s.ests ∧ (sendNextLine s).book = s.book ∧ (sendNextLine s).notices = s.notices ∧
    (sendNextLine s).port = s.port ∧ (sendNextLine s).orders = s.orders ∧ (sendNextLine s).pending = s.pending := by
  generalize h : sendNextLine s = t
  unfold sendNextLine at h
  try dsimp only at h
  (repeat' split at h) <;> subst h <;> simp

@[simp] theorem takeBoardByte_keeps (status : Byte) (s : State) :
    (takeBoardByte status s).time = s.time ∧ (takeBoardByte status s).units = s.units ∧
    (takeBoardByte status s).poller = s.poller ∧ (takeBoardByte status s).ests = s.ests ∧
    (takeBoardByte status s).book = s.book ∧ (takeBoardByte status s).orders = s.orders ∧
    (takeBoardByte status s).pending = s.pending ∧ (takeBoardByte status s).notices.edges = s.notices.edges ∧
    (takeBoardByte status s).port.receiver = s.port.receiver ∧ (takeBoardByte status s).port.input = s.port.input ∧
    (takeBoardByte status s).port.restartPending = s.port.restartPending ∧
    (takeBoardByte status s).port.crcErrors = s.port.crcErrors ∧
    (takeBoardByte status s).port.timeouts = s.port.timeouts ∧
    (takeBoardByte status s).port.overruns = s.port.overruns ∧ (takeBoardByte status s).port.sending = s.port.sending := by
  generalize h : takeBoardByte status s = t
  unfold takeBoardByte at h
  try dsimp only at h
  (repeat' split at h) <;> subst h <;> simp

@[simp] theorem takeBoardMiss_keeps (s : State) :
    (takeBoardMiss s).time = s.time ∧ (takeBoardMiss s).units = s.units ∧ (takeBoardMiss s).poller = s.poller ∧
    (takeBoardMiss s).ests = s.ests ∧ (takeBoardMiss s).book = s.book ∧ (takeBoardMiss s).orders = s.orders ∧
    (takeBoardMiss s).pending = s.pending ∧ (takeBoardMiss s).notices.edges = s.notices.edges ∧
    (takeBoardMiss s).port.receiver = s.port.receiver ∧ (takeBoardMiss s).port.input = s.port.input ∧
    (takeBoardMiss s).port.restartPending = s.port.restartPending ∧
    (takeBoardMiss s).port.crcErrors = s.port.crcErrors ∧ (takeBoardMiss s).port.timeouts = s.port.timeouts ∧
    (takeBoardMiss s).port.overruns = s.port.overruns ∧ (takeBoardMiss s).port.sending = s.port.sending := by
  generalize h : takeBoardMiss s = t
  unfold takeBoardMiss at h
  try dsimp only at h
  (repeat' split at h) <;> subst h <;> simp

/-! ### The Flow Estimator (R60 to R80) -/

@[simp] theorem setWait_keeps (r : Nat) (w : Option Wait) (s : State) :
    (setWait r w s).time = s.time ∧ (setWait r w s).units = s.units ∧ (setWait r w s).poller = s.poller ∧
    (setWait r w s).book = s.book ∧ (setWait r w s).orders = s.orders ∧ (setWait r w s).pending = s.pending ∧
    (setWait r w s).notices.edges = s.notices.edges ∧ (setWait r w s).port.receiver = s.port.receiver ∧
    (setWait r w s).port.input = s.port.input ∧ (setWait r w s).port.restartPending = s.port.restartPending ∧
    (setWait r w s).port.crcErrors = s.port.crcErrors ∧ (setWait r w s).port.timeouts = s.port.timeouts ∧
    (setWait r w s).port.overruns = s.port.overruns ∧ (setWait r w s).port.sending = s.port.sending := by
  generalize h : setWait r w s = t
  unfold setWait at h
  try dsimp only at h
  (repeat' split at h) <;> subst h <;> simp

@[simp] theorem computeOnly_keeps (r : Nat) (s : State) :
    (computeOnly r s).time = s.time ∧ (computeOnly r s).units = s.units ∧ (computeOnly r s).poller = s.poller ∧
    (computeOnly r s).book = s.book ∧ (computeOnly r s).boards = s.boards ∧ (computeOnly r s).notices = s.notices ∧
    (computeOnly r s).port = s.port ∧ (computeOnly r s).orders = s.orders ∧ (computeOnly r s).pending = s.pending := by
  generalize h : computeOnly r s = t
  unfold computeOnly at h
  try dsimp only at h
  (repeat' split at h) <;> subst h <;> simp

@[simp] theorem publishNow_keeps (r : Nat) (s : State) :
    (publishNow r s).time = s.time ∧ (publishNow r s).units = s.units ∧ (publishNow r s).poller = s.poller ∧
    (publishNow r s).book = s.book ∧ (publishNow r s).orders = s.orders ∧ (publishNow r s).pending = s.pending ∧
    (publishNow r s).notices.edges = s.notices.edges ∧ (publishNow r s).port.receiver = s.port.receiver ∧
    (publishNow r s).port.input = s.port.input ∧ (publishNow r s).port.restartPending = s.port.restartPending ∧
    (publishNow r s).port.crcErrors = s.port.crcErrors ∧ (publishNow r s).port.timeouts = s.port.timeouts ∧
    (publishNow r s).port.overruns = s.port.overruns ∧ (publishNow r s).port.sending = s.port.sending := by
  generalize h : publishNow r s = t
  unfold publishNow at h
  try dsimp only at h
  (repeat' split at h) <;> subst h <;> simp

@[simp] theorem publishMinute_keeps (r : Nat) (s : State) :
    (publishMinute r s).time = s.time ∧ (publishMinute r s).units = s.units ∧ (publishMinute r s).poller = s.poller ∧
    (publishMinute r s).book = s.book ∧ (publishMinute r s).orders = s.orders ∧
    (publishMinute r s).pending = s.pending ∧ (publishMinute r s).notices.edges = s.notices.edges ∧
    (publishMinute r s).port.receiver = s.port.receiver ∧ (publishMinute r s).port.input = s.port.input ∧
    (publishMinute r s).port.restartPending = s.port.restartPending ∧
    (publishMinute r s).port.crcErrors = s.port.crcErrors ∧ (publishMinute r s).port.timeouts = s.port.timeouts ∧
    (publishMinute r s).port.overruns = s.port.overruns ∧ (publishMinute r s).port.sending = s.port.sending := by
  generalize h : publishMinute r s = t
  unfold publishMinute at h
  try dsimp only at h
  (repeat' split at h) <;> subst h <;> simp

@[simp] theorem setStale_keeps (r : Nat) (s : State) :
    (setStale r s).time = s.time ∧ (setStale r s).units = s.units ∧ (setStale r s).poller = s.poller ∧
    (setStale r s).book = s.book ∧ (setStale r s).orders = s.orders ∧ (setStale r s).pending = s.pending ∧
    (setStale r s).notices.edges = s.notices.edges ∧ (setStale r s).port.receiver = s.port.receiver ∧
    (setStale r s).port.input = s.port.input ∧ (setStale r s).port.restartPending = s.port.restartPending ∧
    (setStale r s).port.crcErrors = s.port.crcErrors ∧ (setStale r s).port.timeouts = s.port.timeouts ∧
    (setStale r s).port.overruns = s.port.overruns ∧ (setStale r s).port.sending = s.port.sending := by
  generalize h : setStale r s = t
  unfold setStale at h
  try dsimp only at h
  subst h
  simp

@[simp] theorem staleCheck_keeps (r : Nat) (s : State) :
    (staleCheck r s).time = s.time ∧ (staleCheck r s).units = s.units ∧ (staleCheck r s).poller = s.poller ∧
    (staleCheck r s).book = s.book ∧ (staleCheck r s).orders = s.orders ∧ (staleCheck r s).pending = s.pending ∧
    (staleCheck r s).notices.edges = s.notices.edges ∧ (staleCheck r s).port.receiver = s.port.receiver ∧
    (staleCheck r s).port.input = s.port.input ∧ (staleCheck r s).port.restartPending = s.port.restartPending ∧
    (staleCheck r s).port.crcErrors = s.port.crcErrors ∧ (staleCheck r s).port.timeouts = s.port.timeouts ∧
    (staleCheck r s).port.overruns = s.port.overruns ∧ (staleCheck r s).port.sending = s.port.sending := by
  generalize h : staleCheck r s = t
  unfold staleCheck at h
  try dsimp only at h
  (repeat' split at h) <;> subst h <;> simp

@[simp] theorem staleMinute_keeps (r : Nat) (s : State) :
    (staleMinute r s).time = s.time ∧ (staleMinute r s).units = s.units ∧ (staleMinute r s).poller = s.poller ∧
    (staleMinute r s).book = s.book ∧ (staleMinute r s).orders = s.orders ∧ (staleMinute r s).pending = s.pending ∧
    (staleMinute r s).notices.edges = s.notices.edges ∧ (staleMinute r s).port.receiver = s.port.receiver ∧
    (staleMinute r s).port.input = s.port.input ∧ (staleMinute r s).port.restartPending = s.port.restartPending ∧
    (staleMinute r s).port.crcErrors = s.port.crcErrors ∧ (staleMinute r s).port.timeouts = s.port.timeouts ∧
    (staleMinute r s).port.overruns = s.port.overruns ∧ (staleMinute r s).port.sending = s.port.sending := by
  generalize h : staleMinute r s = t
  unfold staleMinute at h
  try dsimp only at h
  (repeat' split at h) <;> subst h <;> simp

@[simp] theorem estimatorHears_keeps (r : Nat) (new : RideState) (s : State) :
    (estimatorHears r new s).time = s.time ∧ (estimatorHears r new s).units = s.units ∧
    (estimatorHears r new s).poller = s.poller ∧ (estimatorHears r new s).book = s.book ∧
    (estimatorHears r new s).orders = s.orders ∧ (estimatorHears r new s).pending = s.pending ∧
    (estimatorHears r new s).notices.edges = s.notices.edges ∧
    (estimatorHears r new s).port.receiver = s.port.receiver ∧ (estimatorHears r new s).port.input = s.port.input ∧
    (estimatorHears r new s).port.restartPending = s.port.restartPending ∧
    (estimatorHears r new s).port.crcErrors = s.port.crcErrors ∧
    (estimatorHears r new s).port.timeouts = s.port.timeouts ∧
    (estimatorHears r new s).port.overruns = s.port.overruns ∧ (estimatorHears r new s).port.sending = s.port.sending := by
  generalize h : estimatorHears r new s = t
  unfold estimatorHears at h
  try dsimp only at h
  (repeat' split at h) <;> subst h <;> simp

@[simp] theorem estimatorLink_keeps (r : Nat) (prev new : Link) (s : State) :
    (estimatorLink r prev new s).time = s.time ∧ (estimatorLink r prev new s).units = s.units ∧
    (estimatorLink r prev new s).poller = s.poller ∧ (estimatorLink r prev new s).book = s.book ∧
    (estimatorLink r prev new s).orders = s.orders ∧ (estimatorLink r prev new s).pending = s.pending ∧
    (estimatorLink r prev new s).notices.edges = s.notices.edges ∧
    (estimatorLink r prev new s).port.receiver = s.port.receiver ∧
    (estimatorLink r prev new s).port.input = s.port.input ∧
    (estimatorLink r prev new s).port.restartPending = s.port.restartPending ∧
    (estimatorLink r prev new s).port.crcErrors = s.port.crcErrors ∧
    (estimatorLink r prev new s).port.timeouts = s.port.timeouts ∧
    (estimatorLink r prev new s).port.overruns = s.port.overruns ∧
    (estimatorLink r prev new s).port.sending = s.port.sending := by
  generalize h : estimatorLink r prev new s = t
  unfold estimatorLink at h
  try dsimp only at h
  (repeat' split at h) <;> subst h <;> simp

@[simp] theorem clearEligible_keeps (s : State) :
    (clearEligible s).time = s.time ∧ (clearEligible s).units = s.units ∧ (clearEligible s).poller = s.poller ∧
    (clearEligible s).book = s.book ∧ (clearEligible s).boards = s.boards ∧ (clearEligible s).notices = s.notices ∧
    (clearEligible s).port = s.port ∧ (clearEligible s).orders = s.orders ∧ (clearEligible s).pending = s.pending := by
  generalize h : clearEligible s = t
  unfold clearEligible at h
  try dsimp only at h
  subst h
  simp

/-! ### The Return Book (R84 to R99) -/

@[simp] theorem judgeSlots_keeps (r : Nat) (s : State) :
    (judgeSlots r s).time = s.time ∧ (judgeSlots r s).units = s.units ∧ (judgeSlots r s).poller = s.poller ∧
    (judgeSlots r s).ests = s.ests ∧ (judgeSlots r s).boards = s.boards ∧ (judgeSlots r s).orders = s.orders ∧
    (judgeSlots r s).pending = s.pending ∧ (judgeSlots r s).notices.edges = s.notices.edges ∧
    (judgeSlots r s).port.receiver = s.port.receiver ∧ (judgeSlots r s).port.input = s.port.input ∧
    (judgeSlots r s).port.restartPending = s.port.restartPending ∧
    (judgeSlots r s).port.crcErrors = s.port.crcErrors ∧ (judgeSlots r s).port.timeouts = s.port.timeouts ∧
    (judgeSlots r s).port.overruns = s.port.overruns ∧ (judgeSlots r s).port.sending = s.port.sending ∧
    (judgeSlots r s).book.passes = s.book.passes ∧ (judgeSlots r s).book.retired = s.book.retired ∧
    (judgeSlots r s).book.serial = s.book.serial ∧ (judgeSlots r s).book.accounts = s.book.accounts ∧
    (judgeSlots r s).book.activeCount = s.book.activeCount ∧ (judgeSlots r s).book.bookLevel = s.book.bookLevel := by
  generalize h : judgeSlots r s = t
  unfold judgeSlots at h
  try dsimp only at h
  (repeat' split at h) <;> subst h <;> simp

@[simp] theorem judgeFlex_keeps (r : Nat) (s : State) :
    (judgeFlex r s).time = s.time ∧ (judgeFlex r s).units = s.units ∧ (judgeFlex r s).poller = s.poller ∧
    (judgeFlex r s).ests = s.ests ∧ (judgeFlex r s).boards = s.boards ∧ (judgeFlex r s).orders = s.orders ∧
    (judgeFlex r s).pending = s.pending ∧ (judgeFlex r s).notices.edges = s.notices.edges ∧
    (judgeFlex r s).port.receiver = s.port.receiver ∧ (judgeFlex r s).port.input = s.port.input ∧
    (judgeFlex r s).port.restartPending = s.port.restartPending ∧ (judgeFlex r s).port.crcErrors = s.port.crcErrors ∧
    (judgeFlex r s).port.timeouts = s.port.timeouts ∧ (judgeFlex r s).port.overruns = s.port.overruns ∧
    (judgeFlex r s).port.sending = s.port.sending ∧ (judgeFlex r s).book.passes = s.book.passes ∧
    (judgeFlex r s).book.retired = s.book.retired ∧ (judgeFlex r s).book.serial = s.book.serial ∧
    (judgeFlex r s).book.accounts = s.book.accounts ∧ (judgeFlex r s).book.activeCount = s.book.activeCount ∧
    (judgeFlex r s).book.bookLevel = s.book.bookLevel := by
  generalize h : judgeFlex r s = t
  unfold judgeFlex at h
  try dsimp only at h
  (repeat' split at h) <;> subst h <;> simp

@[simp] theorem judgeBook_keeps (s : State) :
    (judgeBook s).time = s.time ∧ (judgeBook s).units = s.units ∧ (judgeBook s).poller = s.poller ∧
    (judgeBook s).ests = s.ests ∧ (judgeBook s).boards = s.boards ∧ (judgeBook s).orders = s.orders ∧
    (judgeBook s).pending = s.pending ∧ (judgeBook s).notices.edges = s.notices.edges ∧
    (judgeBook s).port.receiver = s.port.receiver ∧ (judgeBook s).port.input = s.port.input ∧
    (judgeBook s).port.restartPending = s.port.restartPending ∧ (judgeBook s).port.crcErrors = s.port.crcErrors ∧
    (judgeBook s).port.timeouts = s.port.timeouts ∧ (judgeBook s).port.overruns = s.port.overruns ∧
    (judgeBook s).port.sending = s.port.sending ∧ (judgeBook s).book.passes = s.book.passes ∧
    (judgeBook s).book.retired = s.book.retired ∧ (judgeBook s).book.serial = s.book.serial ∧
    (judgeBook s).book.accounts = s.book.accounts ∧ (judgeBook s).book.activeCount = s.book.activeCount ∧
    (judgeBook s).book.rides = s.book.rides := by
  generalize h : judgeBook s = t
  unfold judgeBook at h
  try dsimp only at h
  (repeat' split at h) <;> subst h <;> simp

@[simp] theorem place_keeps (r : Nat) (s : State) :
    (place r s).time = s.time ∧ (place r s).units = s.units ∧ (place r s).poller = s.poller ∧
    (place r s).ests = s.ests ∧ (place r s).boards = s.boards ∧ (place r s).notices = s.notices ∧
    (place r s).port = s.port ∧ (place r s).orders = s.orders ∧ (place r s).pending = s.pending ∧
    (place r s).book.passes = s.book.passes ∧ (place r s).book.retired = s.book.retired ∧
    (place r s).book.serial = s.book.serial ∧ (place r s).book.accounts = s.book.accounts ∧
    (place r s).book.activeCount = s.book.activeCount ∧ (place r s).book.bookLevel = s.book.bookLevel := by
  generalize h : place r s = t
  unfold place at h
  try dsimp only at h
  (repeat' split at h) <;> subst h <;> simp

@[simp] theorem markWindows_keeps (r : Nat) (since : Option Nat) (s : State) :
    (markWindows r since s).time = s.time ∧ (markWindows r since s).units = s.units ∧
    (markWindows r since s).poller = s.poller ∧ (markWindows r since s).ests = s.ests ∧
    (markWindows r since s).boards = s.boards ∧ (markWindows r since s).notices = s.notices ∧
    (markWindows r since s).port = s.port ∧ (markWindows r since s).orders = s.orders ∧
    (markWindows r since s).pending = s.pending ∧ (markWindows r since s).book.passes = s.book.passes ∧
    (markWindows r since s).book.retired = s.book.retired ∧ (markWindows r since s).book.serial = s.book.serial ∧
    (markWindows r since s).book.accounts = s.book.accounts ∧
    (markWindows r since s).book.activeCount = s.book.activeCount ∧
    (markWindows r since s).book.bookLevel = s.book.bookLevel := by
  generalize h : markWindows r since s = t
  unfold markWindows at h
  try dsimp only at h
  (repeat' split at h) <;> subst h <;> simp

@[simp] theorem bookHears_keeps (r : Nat) (new : RideState) (since : Option Nat) (s : State) :
    (bookHears r new since s).time = s.time ∧ (bookHears r new since s).units = s.units ∧
    (bookHears r new since s).poller = s.poller ∧ (bookHears r new since s).ests = s.ests ∧
    (bookHears r new since s).boards = s.boards ∧ (bookHears r new since s).orders = s.orders ∧
    (bookHears r new since s).pending = s.pending ∧ (bookHears r new since s).notices.edges = s.notices.edges ∧
    (bookHears r new since s).port.receiver = s.port.receiver ∧ (bookHears r new since s).port.input = s.port.input ∧
    (bookHears r new since s).port.restartPending = s.port.restartPending ∧
    (bookHears r new since s).port.crcErrors = s.port.crcErrors ∧
    (bookHears r new since s).port.timeouts = s.port.timeouts ∧
    (bookHears r new since s).port.overruns = s.port.overruns ∧
    (bookHears r new since s).port.sending = s.port.sending ∧ (bookHears r new since s).book.passes = s.book.passes ∧
    (bookHears r new since s).book.retired = s.book.retired ∧ (bookHears r new since s).book.serial = s.book.serial ∧
    (bookHears r new since s).book.accounts = s.book.accounts ∧
    (bookHears r new since s).book.activeCount = s.book.activeCount ∧
    (bookHears r new since s).book.bookLevel = s.book.bookLevel := by
  generalize h : bookHears r new since s = t
  unfold bookHears at h
  try dsimp only at h
  (repeat' split at h) <;> subst h <;> simp

@[simp] theorem retirePass_keeps (n : Nat) (st : PassState) (s : State) :
    (retirePass n st s).time = s.time ∧ (retirePass n st s).units = s.units ∧ (retirePass n st s).poller = s.poller ∧
    (retirePass n st s).ests = s.ests ∧ (retirePass n st s).boards = s.boards ∧
    (retirePass n st s).notices = s.notices ∧ (retirePass n st s).port = s.port ∧
    (retirePass n st s).orders = s.orders ∧ (retirePass n st s).pending = s.pending ∧
    (retirePass n st s).book.rides = s.book.rides ∧ (retirePass n st s).book.serial = s.book.serial ∧
    (retirePass n st s).book.bookLevel = s.book.bookLevel := by
  generalize h : retirePass n st s = t
  unfold retirePass at h
  try dsimp only at h
  (repeat' split at h) <;> subst h <;> simp

@[simp] theorem convertPass_keeps (r n : Nat) (s : State) :
    (convertPass r n s).time = s.time ∧ (convertPass r n s).units = s.units ∧ (convertPass r n s).poller = s.poller ∧
    (convertPass r n s).ests = s.ests ∧ (convertPass r n s).boards = s.boards ∧
    (convertPass r n s).notices = s.notices ∧ (convertPass r n s).port = s.port ∧
    (convertPass r n s).orders = s.orders ∧ (convertPass r n s).pending = s.pending ∧
    (convertPass r n s).book.retired = s.book.retired ∧ (convertPass r n s).book.serial = s.book.serial ∧
    (convertPass r n s).book.accounts = s.book.accounts ∧ (convertPass r n s).book.activeCount = s.book.activeCount ∧
    (convertPass r n s).book.bookLevel = s.book.bookLevel := by
  generalize h : convertPass r n s = t
  unfold convertPass at h
  try dsimp only at h
  (repeat' split at h) <;> subst h <;> simp

@[simp] theorem disposeWindow_keeps (r i : Nat) (w : Window) (s : State) :
    (disposeWindow r i w s).time = s.time ∧ (disposeWindow r i w s).units = s.units ∧
    (disposeWindow r i w s).poller = s.poller ∧ (disposeWindow r i w s).ests = s.ests ∧
    (disposeWindow r i w s).boards = s.boards ∧ (disposeWindow r i w s).notices = s.notices ∧
    (disposeWindow r i w s).port = s.port ∧ (disposeWindow r i w s).orders = s.orders ∧
    (disposeWindow r i w s).pending = s.pending ∧ (disposeWindow r i w s).book.serial = s.book.serial ∧
    (disposeWindow r i w s).book.bookLevel = s.book.bookLevel := by
  unfold disposeWindow
  split
  · refine ⟨?_, ?_, ?_, ?_, ?_, ?_, ?_, ?_, ?_, ?_, ?_⟩
    · simpa using foldl_keeps (fun s => s.time) _ (fun s x => by simp) _ s
    · simpa using foldl_keeps (fun s => s.units) _ (fun s x => by simp) _ s
    · simpa using foldl_keeps (fun s => s.poller) _ (fun s x => by simp) _ s
    · simpa using foldl_keeps (fun s => s.ests) _ (fun s x => by simp) _ s
    · simpa using foldl_keeps (fun s => s.boards) _ (fun s x => by simp) _ s
    · simpa using foldl_keeps (fun s => s.notices) _ (fun s x => by simp) _ s
    · simpa using foldl_keeps (fun s => s.port) _ (fun s x => by simp) _ s
    · simpa using foldl_keeps (fun s => s.orders) _ (fun s x => by simp) _ s
    · simpa using foldl_keeps (fun s => s.pending) _ (fun s x => by simp) _ s
    · simpa using foldl_keeps (fun s => s.book.serial) _ (fun s x => by simp) _ s
    · simpa using foldl_keeps (fun s => s.book.bookLevel) _ (fun s x => by simp) _ s
  · refine ⟨?_, ?_, ?_, ?_, ?_, ?_, ?_, ?_, ?_, ?_, ?_⟩
    · simpa using foldl_keeps (fun s => s.time) _ (fun s x => by simp) _ s
    · simpa using foldl_keeps (fun s => s.units) _ (fun s x => by simp) _ s
    · simpa using foldl_keeps (fun s => s.poller) _ (fun s x => by simp) _ s
    · simpa using foldl_keeps (fun s => s.ests) _ (fun s x => by simp) _ s
    · simpa using foldl_keeps (fun s => s.boards) _ (fun s x => by simp) _ s
    · simpa using foldl_keeps (fun s => s.notices) _ (fun s x => by simp) _ s
    · simpa using foldl_keeps (fun s => s.port) _ (fun s x => by simp) _ s
    · simpa using foldl_keeps (fun s => s.orders) _ (fun s x => by simp) _ s
    · simpa using foldl_keeps (fun s => s.pending) _ (fun s x => by simp) _ s
    · simpa using foldl_keeps (fun s => s.book.serial) _ (fun s x => by simp) _ s
    · simpa using foldl_keeps (fun s => s.book.bookLevel) _ (fun s x => by simp) _ s

@[simp] theorem settleWindow_keeps (r i : Nat) (w : Window) (s : State) :
    (settleWindow r i w s).time = s.time ∧ (settleWindow r i w s).units = s.units ∧
    (settleWindow r i w s).poller = s.poller ∧ (settleWindow r i w s).ests = s.ests ∧
    (settleWindow r i w s).boards = s.boards ∧ (settleWindow r i w s).orders = s.orders ∧
    (settleWindow r i w s).pending = s.pending ∧ (settleWindow r i w s).notices.edges = s.notices.edges ∧
    (settleWindow r i w s).port.receiver = s.port.receiver ∧ (settleWindow r i w s).port.input = s.port.input ∧
    (settleWindow r i w s).port.restartPending = s.port.restartPending ∧
    (settleWindow r i w s).port.crcErrors = s.port.crcErrors ∧
    (settleWindow r i w s).port.timeouts = s.port.timeouts ∧ (settleWindow r i w s).port.overruns = s.port.overruns ∧
    (settleWindow r i w s).port.sending = s.port.sending ∧ (settleWindow r i w s).book.serial = s.book.serial ∧
    (settleWindow r i w s).book.bookLevel = s.book.bookLevel := by
  generalize h : settleWindow r i w s = t
  unfold settleWindow at h
  try dsimp only at h
  (repeat' split at h) <;> subst h <;> simp

@[simp] theorem windowStart_keeps (i r : Nat) (s : State) :
    (windowStart i r s).time = s.time ∧ (windowStart i r s).units = s.units ∧ (windowStart i r s).poller = s.poller ∧
    (windowStart i r s).ests = s.ests ∧ (windowStart i r s).boards = s.boards ∧
    (windowStart i r s).orders = s.orders ∧ (windowStart i r s).pending = s.pending ∧
    (windowStart i r s).notices.edges = s.notices.edges ∧ (windowStart i r s).port.receiver = s.port.receiver ∧
    (windowStart i r s).port.input = s.port.input ∧ (windowStart i r s).port.restartPending = s.port.restartPending ∧
    (windowStart i r s).port.crcErrors = s.port.crcErrors ∧ (windowStart i r s).port.timeouts = s.port.timeouts ∧
    (windowStart i r s).port.overruns = s.port.overruns ∧ (windowStart i r s).port.sending = s.port.sending ∧
    (windowStart i r s).book.passes = s.book.passes ∧ (windowStart i r s).book.retired = s.book.retired ∧
    (windowStart i r s).book.serial = s.book.serial ∧ (windowStart i r s).book.accounts = s.book.accounts ∧
    (windowStart i r s).book.activeCount = s.book.activeCount ∧ (windowStart i r s).book.bookLevel = s.book.bookLevel := by
  generalize h : windowStart i r s = t
  unfold windowStart at h
  try dsimp only at h
  (repeat' split at h) <;> subst h <;> simp

/-- The end of the grid moves what the Return Book keeps of one ride, and the notices of its level. -/
@[simp] theorem endGrid_keeps (r : Nat) (s : State) :
    (endGrid r s).time = s.time ∧ (endGrid r s).units = s.units ∧ (endGrid r s).poller = s.poller ∧
    (endGrid r s).ests = s.ests ∧ (endGrid r s).boards = s.boards ∧
    (endGrid r s).orders = s.orders ∧ (endGrid r s).pending = s.pending ∧
    (endGrid r s).notices.edges = s.notices.edges ∧ (endGrid r s).port.receiver = s.port.receiver ∧
    (endGrid r s).port.input = s.port.input ∧ (endGrid r s).port.restartPending = s.port.restartPending ∧
    (endGrid r s).port.crcErrors = s.port.crcErrors ∧ (endGrid r s).port.timeouts = s.port.timeouts ∧
    (endGrid r s).port.overruns = s.port.overruns ∧ (endGrid r s).port.sending = s.port.sending ∧
    (endGrid r s).book.passes = s.book.passes ∧ (endGrid r s).book.retired = s.book.retired ∧
    (endGrid r s).book.serial = s.book.serial ∧ (endGrid r s).book.accounts = s.book.accounts ∧
    (endGrid r s).book.activeCount = s.book.activeCount ∧ (endGrid r s).book.bookLevel = s.book.bookLevel := by
  simp [endGrid]

/-- The order of a report and a grace end that fall together is taken, and nothing else changes. -/
@[simp] theorem takeGraceOrder_keeps (s : State) :
    s.takeGraceOrder.2.time = s.time ∧ s.takeGraceOrder.2.units = s.units ∧ s.takeGraceOrder.2.poller = s.poller ∧
    s.takeGraceOrder.2.ests = s.ests ∧ s.takeGraceOrder.2.book = s.book ∧ s.takeGraceOrder.2.boards = s.boards ∧
    s.takeGraceOrder.2.notices = s.notices ∧ s.takeGraceOrder.2.port = s.port ∧
    s.takeGraceOrder.2.pending = s.pending := by
  unfold State.takeGraceOrder
  split <;> simp

/-- The Return Book's late reports mark windows and judge SLOTS, and touch no pass (R90, R91). -/
@[simp] theorem takeLate_keeps (pick : StateReport → Bool) (s : State) :
    (takeLate pick s).time = s.time ∧ (takeLate pick s).units = s.units ∧ (takeLate pick s).poller = s.poller ∧
    (takeLate pick s).ests = s.ests ∧ (takeLate pick s).boards = s.boards ∧ (takeLate pick s).orders = s.orders ∧
    (takeLate pick s).pending = s.pending ∧ (takeLate pick s).notices.edges = s.notices.edges ∧
    (takeLate pick s).port.receiver = s.port.receiver ∧ (takeLate pick s).port.input = s.port.input ∧
    (takeLate pick s).port.restartPending = s.port.restartPending ∧
    (takeLate pick s).port.crcErrors = s.port.crcErrors ∧ (takeLate pick s).port.timeouts = s.port.timeouts ∧
    (takeLate pick s).port.overruns = s.port.overruns ∧ (takeLate pick s).port.sending = s.port.sending ∧
    (takeLate pick s).book.passes = s.book.passes ∧ (takeLate pick s).book.retired = s.book.retired ∧
    (takeLate pick s).book.serial = s.book.serial ∧ (takeLate pick s).book.accounts = s.book.accounts ∧
    (takeLate pick s).book.activeCount = s.book.activeCount ∧ (takeLate pick s).book.bookLevel = s.book.bookLevel := by
  unfold takeLate
  refine ⟨?_, ?_, ?_, ?_, ?_, ?_, ?_, ?_, ?_, ?_, ?_, ?_, ?_, ?_, ?_, ?_, ?_, ?_, ?_, ?_, ?_⟩
  · exact (foldl_keeps (fun s => s.time) _ (fun s x => by simp) _ _).trans rfl
  · exact (foldl_keeps (fun s => s.units) _ (fun s x => by simp) _ _).trans rfl
  · exact (foldl_keeps (fun s => s.poller) _ (fun s x => by simp) _ _).trans rfl
  · exact (foldl_keeps (fun s => s.ests) _ (fun s x => by simp) _ _).trans rfl
  · exact (foldl_keeps (fun s => s.boards) _ (fun s x => by simp) _ _).trans rfl
  · exact (foldl_keeps (fun s => s.orders) _ (fun s x => by simp) _ _).trans rfl
  · exact (foldl_keeps (fun s => s.pending) _ (fun s x => by simp) _ _).trans rfl
  · exact (foldl_keeps (fun s => s.notices.edges) _ (fun s x => by simp) _ _).trans rfl
  · exact (foldl_keeps (fun s => s.port.receiver) _ (fun s x => by simp) _ _).trans rfl
  · exact (foldl_keeps (fun s => s.port.input) _ (fun s x => by simp) _ _).trans rfl
  · exact (foldl_keeps (fun s => s.port.restartPending) _ (fun s x => by simp) _ _).trans rfl
  · exact (foldl_keeps (fun s => s.port.crcErrors) _ (fun s x => by simp) _ _).trans rfl
  · exact (foldl_keeps (fun s => s.port.timeouts) _ (fun s x => by simp) _ _).trans rfl
  · exact (foldl_keeps (fun s => s.port.overruns) _ (fun s x => by simp) _ _).trans rfl
  · exact (foldl_keeps (fun s => s.port.sending) _ (fun s x => by simp) _ _).trans rfl
  · exact (foldl_keeps (fun s => s.book.passes) _ (fun s x => by simp) _ _).trans rfl
  · exact (foldl_keeps (fun s => s.book.retired) _ (fun s x => by simp) _ _).trans rfl
  · exact (foldl_keeps (fun s => s.book.serial) _ (fun s x => by simp) _ _).trans rfl
  · exact (foldl_keeps (fun s => s.book.accounts) _ (fun s x => by simp) _ _).trans rfl
  · exact (foldl_keeps (fun s => s.book.activeCount) _ (fun s x => by simp) _ _).trans rfl
  · exact (foldl_keeps (fun s => s.book.bookLevel) _ (fun s x => by simp) _ _).trans rfl

@[simp] theorem reportToBook_keeps (rep : StateReport) (s : State) :
    (reportToBook rep s).time = s.time ∧ (reportToBook rep s).units = s.units ∧
    (reportToBook rep s).poller = s.poller ∧ (reportToBook rep s).ests = s.ests ∧
    (reportToBook rep s).boards = s.boards ∧ (reportToBook rep s).pending = s.pending ∧
    (reportToBook rep s).notices.edges = s.notices.edges ∧ (reportToBook rep s).port.receiver = s.port.receiver ∧
    (reportToBook rep s).port.input = s.port.input ∧
    (reportToBook rep s).port.restartPending = s.port.restartPending ∧
    (reportToBook rep s).port.crcErrors = s.port.crcErrors ∧ (reportToBook rep s).port.timeouts = s.port.timeouts ∧
    (reportToBook rep s).port.overruns = s.port.overruns ∧ (reportToBook rep s).port.sending = s.port.sending ∧
    (reportToBook rep s).book.passes = s.book.passes ∧ (reportToBook rep s).book.retired = s.book.retired ∧
    (reportToBook rep s).book.serial = s.book.serial ∧ (reportToBook rep s).book.accounts = s.book.accounts ∧
    (reportToBook rep s).book.activeCount = s.book.activeCount ∧
    (reportToBook rep s).book.bookLevel = s.book.bookLevel := by
  generalize h : reportToBook rep s = t
  unfold reportToBook at h
  try dsimp only at h
  (repeat' split at h) <;> subst h <;> simp

/-! ### The Ride State Unit (R18 to R37) -/

@[simp] theorem hear_keeps (rep : StateReport) (s : State) (h : Hearer) :
    (hear rep s h).time = s.time ∧ (hear rep s h).units = s.units ∧ (hear rep s h).poller = s.poller ∧
    (hear rep s h).pending = s.pending ∧
    (hear rep s h).notices.edges = s.notices.edges ∧ (hear rep s h).port.receiver = s.port.receiver ∧
    (hear rep s h).port.input = s.port.input ∧ (hear rep s h).port.restartPending = s.port.restartPending ∧
    (hear rep s h).port.crcErrors = s.port.crcErrors ∧ (hear rep s h).port.timeouts = s.port.timeouts ∧
    (hear rep s h).port.overruns = s.port.overruns ∧ (hear rep s h).port.sending = s.port.sending ∧
    (hear rep s h).book.passes = s.book.passes ∧ (hear rep s h).book.retired = s.book.retired ∧
    (hear rep s h).book.serial = s.book.serial ∧ (hear rep s h).book.accounts = s.book.accounts ∧
    (hear rep s h).book.activeCount = s.book.activeCount ∧ (hear rep s h).book.bookLevel = s.book.bookLevel := by
  generalize h : hear rep s h = t
  unfold hear at h
  try dsimp only at h
  (repeat' split at h) <;> subst h <;> simp

end Sys2Proof.Machine
end

