-- ==== Sys2Proof/Laws/Change.lean ====
section
/-! SUPPORT. A state change in one lemma, whatever the order of its receivers (R23; log 4), and what the operations built
on it leave unchanged. -/

namespace Sys2Proof.Machine

/-- An update at a key that is not in a table changes nothing. -/
theorem update_of_find_none {α : Type} (t : Table α) (k : Nat) (f : α → α) (h : t.find k = none) :
    t.update k f = t := by
  induction t with
  | nil => rfl
  | cons y t ih =>
    obtain ⟨a, v⟩ := y
    simp only [Table.find] at h
    split at h
    · cases h
    · rename_i ha
      simp [Table.update, ha, ih h]

@[simp] theorem takeReportOrder_keeps (s : State) :
    s.takeReportOrder.2.time = s.time ∧ s.takeReportOrder.2.units = s.units ∧ s.takeReportOrder.2.poller = s.poller ∧
    s.takeReportOrder.2.ests = s.ests ∧ s.takeReportOrder.2.book = s.book ∧ s.takeReportOrder.2.boards = s.boards ∧
    s.takeReportOrder.2.notices = s.notices ∧ s.takeReportOrder.2.port = s.port ∧
    s.takeReportOrder.2.pending = s.pending := by
  unfold State.takeReportOrder
  split <;> simp

@[simp] theorem takeTickOrder_keeps (s : State) :
    s.takeTickOrder.2.time = s.time ∧ s.takeTickOrder.2.units = s.units ∧ s.takeTickOrder.2.poller = s.poller ∧
    s.takeTickOrder.2.ests = s.ests ∧ s.takeTickOrder.2.book = s.book ∧ s.takeTickOrder.2.boards = s.boards ∧
    s.takeTickOrder.2.notices = s.notices ∧ s.takeTickOrder.2.port = s.port ∧
    s.takeTickOrder.2.pending = s.pending := by
  unfold State.takeTickOrder
  split <;> simp

@[simp] theorem takeHandover_keeps (s : State) :
    s.takeHandover.2.time = s.time ∧ s.takeHandover.2.units = s.units ∧ s.takeHandover.2.poller = s.poller ∧
    s.takeHandover.2.ests = s.ests ∧ s.takeHandover.2.book = s.book ∧ s.takeHandover.2.boards = s.boards ∧
    s.takeHandover.2.notices = s.notices ∧ s.takeHandover.2.port = s.port ∧
    s.takeHandover.2.pending = s.pending := by
  unfold State.takeHandover
  split <;> simp

/-- A state change writes the ride record of its ride and no other ride record, whatever the receivers do (R23). -/
@[simp] theorem changeState_units (r : Nat) (new : RideState) (s : State) :
    (changeState r new s).units = s.units.update r (RideUnit.enter new s.clockNow) := by
  unfold changeState
  split
  · rename_i h
    rw [update_of_find_none _ _ _ h]
  · refine (foldl_keeps (fun s => s.units) _ (fun s x => by simp) _ _).trans ?_
    simp

@[simp] theorem changeState_keeps (r : Nat) (new : RideState) (s : State) :
    (changeState r new s).time = s.time ∧ (changeState r new s).poller = s.poller ∧
    (changeState r new s).pending = s.pending ∧ (changeState r new s).notices.edges = s.notices.edges ∧
    (changeState r new s).port.receiver = s.port.receiver ∧ (changeState r new s).port.input = s.port.input ∧
    (changeState r new s).port.restartPending = s.port.restartPending ∧
    (changeState r new s).port.crcErrors = s.port.crcErrors ∧ (changeState r new s).port.timeouts = s.port.timeouts ∧
    (changeState r new s).port.overruns = s.port.overruns ∧ (changeState r new s).port.sending = s.port.sending ∧
    (changeState r new s).book.passes = s.book.passes ∧ (changeState r new s).book.retired = s.book.retired ∧
    (changeState r new s).book.serial = s.book.serial ∧ (changeState r new s).book.accounts = s.book.accounts ∧
    (changeState r new s).book.activeCount = s.book.activeCount ∧
    (changeState r new s).book.bookLevel = s.book.bookLevel := by
  unfold changeState
  split
  · simp
  · refine ⟨?_, ?_, ?_, ?_, ?_, ?_, ?_, ?_, ?_, ?_, ?_, ?_, ?_, ?_, ?_, ?_, ?_⟩
    · exact (foldl_keeps (fun s => s.time) _ (fun s x => by simp) _ _).trans (by simp)
    · exact (foldl_keeps (fun s => s.poller) _ (fun s x => by simp) _ _).trans (by simp)
    · exact (foldl_keeps (fun s => s.pending) _ (fun s x => by simp) _ _).trans (by simp)
    · exact (foldl_keeps (fun s => s.notices.edges) _ (fun s x => by simp) _ _).trans (by simp)
    · exact (foldl_keeps (fun s => s.port.receiver) _ (fun s x => by simp) _ _).trans (by simp)
    · exact (foldl_keeps (fun s => s.port.input) _ (fun s x => by simp) _ _).trans (by simp)
    · exact (foldl_keeps (fun s => s.port.restartPending) _ (fun s x => by simp) _ _).trans (by simp)
    · exact (foldl_keeps (fun s => s.port.crcErrors) _ (fun s x => by simp) _ _).trans (by simp)
    · exact (foldl_keeps (fun s => s.port.timeouts) _ (fun s x => by simp) _ _).trans (by simp)
    · exact (foldl_keeps (fun s => s.port.overruns) _ (fun s x => by simp) _ _).trans (by simp)
    · exact (foldl_keeps (fun s => s.port.sending) _ (fun s x => by simp) _ _).trans (by simp)
    · exact (foldl_keeps (fun s => s.book.passes) _ (fun s x => by simp) _ _).trans (by simp)
    · exact (foldl_keeps (fun s => s.book.retired) _ (fun s x => by simp) _ _).trans (by simp)
    · exact (foldl_keeps (fun s => s.book.serial) _ (fun s x => by simp) _ _).trans (by simp)
    · exact (foldl_keeps (fun s => s.book.accounts) _ (fun s x => by simp) _ _).trans (by simp)
    · exact (foldl_keeps (fun s => s.book.activeCount) _ (fun s x => by simp) _ _).trans (by simp)
    · exact (foldl_keeps (fun s => s.book.bookLevel) _ (fun s x => by simp) _ _).trans (by simp)

@[simp] theorem closeCheck_keeps (r : Nat) (s : State) :
    (closeCheck r s).time = s.time ∧ (closeCheck r s).poller = s.poller ∧ (closeCheck r s).pending = s.pending ∧
    (closeCheck r s).notices.edges = s.notices.edges ∧ (closeCheck r s).port.receiver = s.port.receiver ∧
    (closeCheck r s).port.input = s.port.input ∧ (closeCheck r s).port.restartPending = s.port.restartPending ∧
    (closeCheck r s).port.crcErrors = s.port.crcErrors ∧ (closeCheck r s).port.timeouts = s.port.timeouts ∧
    (closeCheck r s).port.overruns = s.port.overruns ∧ (closeCheck r s).port.sending = s.port.sending ∧
    (closeCheck r s).book.passes = s.book.passes ∧ (closeCheck r s).book.retired = s.book.retired ∧
    (closeCheck r s).book.serial = s.book.serial ∧ (closeCheck r s).book.accounts = s.book.accounts ∧
    (closeCheck r s).book.activeCount = s.book.activeCount ∧ (closeCheck r s).book.bookLevel = s.book.bookLevel := by
  generalize h : closeCheck r s = t
  unfold closeCheck at h
  try dsimp only at h
  (repeat' split at h) <;> subst h <;> simp

@[simp] theorem enterState_keeps (r : Nat) (new : RideState) (s : State) :
    (enterState r new s).time = s.time ∧ (enterState r new s).poller = s.poller ∧
    (enterState r new s).pending = s.pending ∧ (enterState r new s).notices.edges = s.notices.edges ∧
    (enterState r new s).port.receiver = s.port.receiver ∧ (enterState r new s).port.input = s.port.input ∧
    (enterState r new s).port.restartPending = s.port.restartPending ∧
    (enterState r new s).port.crcErrors = s.port.crcErrors ∧ (enterState r new s).port.timeouts = s.port.timeouts ∧
    (enterState r new s).port.overruns = s.port.overruns ∧ (enterState r new s).port.sending = s.port.sending ∧
    (enterState r new s).book.passes = s.book.passes ∧ (enterState r new s).book.retired = s.book.retired ∧
    (enterState r new s).book.serial = s.book.serial ∧ (enterState r new s).book.accounts = s.book.accounts ∧
    (enterState r new s).book.activeCount = s.book.activeCount ∧
    (enterState r new s).book.bookLevel = s.book.bookLevel := by
  generalize h : enterState r new s = t
  unfold enterState at h
  try dsimp only at h
  (repeat' split at h) <;> subst h <;> simp

@[simp] theorem reportZero_keeps (r : Nat) (s : State) :
    (reportZero r s).time = s.time ∧ (reportZero r s).poller = s.poller ∧ (reportZero r s).pending = s.pending ∧
    (reportZero r s).notices.edges = s.notices.edges ∧ (reportZero r s).port.receiver = s.port.receiver ∧
    (reportZero r s).port.input = s.port.input ∧ (reportZero r s).port.restartPending = s.port.restartPending ∧
    (reportZero r s).port.crcErrors = s.port.crcErrors ∧ (reportZero r s).port.timeouts = s.port.timeouts ∧
    (reportZero r s).port.overruns = s.port.overruns ∧ (reportZero r s).port.sending = s.port.sending ∧
    (reportZero r s).book.passes = s.book.passes ∧ (reportZero r s).book.retired = s.book.retired ∧
    (reportZero r s).book.serial = s.book.serial ∧ (reportZero r s).book.accounts = s.book.accounts ∧
    (reportZero r s).book.activeCount = s.book.activeCount ∧ (reportZero r s).book.bookLevel = s.book.bookLevel := by
  generalize h : reportZero r s = t
  unfold reportZero at h
  try dsimp only at h
  (repeat' split at h) <;> subst h <;> simp

@[simp] theorem resolveWindow_keeps (r i : Nat) (s : State) :
    (resolveWindow r i s).time = s.time ∧ (resolveWindow r i s).poller = s.poller ∧
    (resolveWindow r i s).pending = s.pending ∧ (resolveWindow r i s).notices.edges = s.notices.edges ∧
    (resolveWindow r i s).port.receiver = s.port.receiver ∧ (resolveWindow r i s).port.input = s.port.input ∧
    (resolveWindow r i s).port.restartPending = s.port.restartPending ∧
    (resolveWindow r i s).port.crcErrors = s.port.crcErrors ∧ (resolveWindow r i s).port.timeouts = s.port.timeouts ∧
    (resolveWindow r i s).port.overruns = s.port.overruns ∧ (resolveWindow r i s).port.sending = s.port.sending ∧
    (resolveWindow r i s).book.serial = s.book.serial ∧ (resolveWindow r i s).book.bookLevel = s.book.bookLevel := by
  generalize h : resolveWindow r i s = t
  unfold resolveWindow at h
  try dsimp only at h
  (repeat' split at h) <;> subst h <;> simp

@[simp] theorem resolveUpTo_keeps (r i : Nat) (s : State) :
    (resolveUpTo r i s).time = s.time ∧ (resolveUpTo r i s).poller = s.poller ∧
    (resolveUpTo r i s).pending = s.pending ∧ (resolveUpTo r i s).notices.edges = s.notices.edges ∧
    (resolveUpTo r i s).port.receiver = s.port.receiver ∧ (resolveUpTo r i s).port.input = s.port.input ∧
    (resolveUpTo r i s).port.restartPending = s.port.restartPending ∧
    (resolveUpTo r i s).port.crcErrors = s.port.crcErrors ∧ (resolveUpTo r i s).port.timeouts = s.port.timeouts ∧
    (resolveUpTo r i s).port.overruns = s.port.overruns ∧ (resolveUpTo r i s).port.sending = s.port.sending ∧
    (resolveUpTo r i s).book.serial = s.book.serial ∧ (resolveUpTo r i s).book.bookLevel = s.book.bookLevel := by
  unfold resolveUpTo
  refine ⟨?_, ?_, ?_, ?_, ?_, ?_, ?_, ?_, ?_, ?_, ?_, ?_, ?_⟩
  · exact (foldl_keeps (fun s => s.time) _ (fun s x => by simp) _ _).trans (by simp)
  · exact (foldl_keeps (fun s => s.poller) _ (fun s x => by simp) _ _).trans (by simp)
  · exact (foldl_keeps (fun s => s.pending) _ (fun s x => by simp) _ _).trans (by simp)
  · exact (foldl_keeps (fun s => s.notices.edges) _ (fun s x => by simp) _ _).trans (by simp)
  · exact (foldl_keeps (fun s => s.port.receiver) _ (fun s x => by simp) _ _).trans (by simp)
  · exact (foldl_keeps (fun s => s.port.input) _ (fun s x => by simp) _ _).trans (by simp)
  · exact (foldl_keeps (fun s => s.port.restartPending) _ (fun s x => by simp) _ _).trans (by simp)
  · exact (foldl_keeps (fun s => s.port.crcErrors) _ (fun s x => by simp) _ _).trans (by simp)
  · exact (foldl_keeps (fun s => s.port.timeouts) _ (fun s x => by simp) _ _).trans (by simp)
  · exact (foldl_keeps (fun s => s.port.overruns) _ (fun s x => by simp) _ _).trans (by simp)
  · exact (foldl_keeps (fun s => s.port.sending) _ (fun s x => by simp) _ _).trans (by simp)
  · exact (foldl_keeps (fun s => s.book.serial) _ (fun s x => by simp) _ _).trans (by simp)
  · exact (foldl_keeps (fun s => s.book.bookLevel) _ (fun s x => by simp) _ _).trans (by simp)

@[simp] theorem graceEnd_keeps (i r : Nat) (s : State) :
    (graceEnd i r s).time = s.time ∧ (graceEnd i r s).poller = s.poller ∧ (graceEnd i r s).pending = s.pending ∧
    (graceEnd i r s).notices.edges = s.notices.edges ∧ (graceEnd i r s).port.receiver = s.port.receiver ∧
    (graceEnd i r s).port.input = s.port.input ∧ (graceEnd i r s).port.restartPending = s.port.restartPending ∧
    (graceEnd i r s).port.crcErrors = s.port.crcErrors ∧ (graceEnd i r s).port.timeouts = s.port.timeouts ∧
    (graceEnd i r s).port.overruns = s.port.overruns ∧ (graceEnd i r s).port.sending = s.port.sending ∧
    (graceEnd i r s).book.serial = s.book.serial := by
  generalize h : graceEnd i r s = t
  unfold graceEnd at h
  try dsimp only at h
  subst h
  simp

@[simp] theorem openingEvent_keeps (r : Nat) (s : State) :
    (openingEvent r s).time = s.time ∧ (openingEvent r s).poller = s.poller ∧
    (openingEvent r s).pending = s.pending ∧ (openingEvent r s).notices.edges = s.notices.edges ∧
    (openingEvent r s).port.receiver = s.port.receiver ∧ (openingEvent r s).port.input = s.port.input ∧
    (openingEvent r s).port.restartPending = s.port.restartPending ∧
    (openingEvent r s).port.crcErrors = s.port.crcErrors ∧ (openingEvent r s).port.timeouts = s.port.timeouts ∧
    (openingEvent r s).port.overruns = s.port.overruns ∧ (openingEvent r s).port.sending = s.port.sending ∧
    (openingEvent r s).book.passes = s.book.passes ∧ (openingEvent r s).book.retired = s.book.retired ∧
    (openingEvent r s).book.serial = s.book.serial ∧ (openingEvent r s).book.accounts = s.book.accounts ∧
    (openingEvent r s).book.activeCount = s.book.activeCount ∧ (openingEvent r s).book.bookLevel = s.book.bookLevel := by
  generalize h : openingEvent r s = t
  unfold openingEvent at h
  try dsimp only at h
  (repeat' split at h) <;> subst h <;> simp

@[simp] theorem parkCloseEvent_keeps (r : Nat) (s : State) :
    (parkCloseEvent r s).time = s.time ∧ (parkCloseEvent r s).poller = s.poller ∧
    (parkCloseEvent r s).pending = s.pending ∧ (parkCloseEvent r s).notices.edges = s.notices.edges ∧
    (parkCloseEvent r s).port.receiver = s.port.receiver ∧ (parkCloseEvent r s).port.input = s.port.input ∧
    (parkCloseEvent r s).port.restartPending = s.port.restartPending ∧
    (parkCloseEvent r s).port.crcErrors = s.port.crcErrors ∧ (parkCloseEvent r s).port.timeouts = s.port.timeouts ∧
    (parkCloseEvent r s).port.overruns = s.port.overruns ∧ (parkCloseEvent r s).port.sending = s.port.sending ∧
    (parkCloseEvent r s).book.passes = s.book.passes ∧ (parkCloseEvent r s).book.retired = s.book.retired ∧
    (parkCloseEvent r s).book.serial = s.book.serial ∧ (parkCloseEvent r s).book.accounts = s.book.accounts ∧
    (parkCloseEvent r s).book.activeCount = s.book.activeCount ∧
    (parkCloseEvent r s).book.bookLevel = s.book.bookLevel := by
  generalize h : parkCloseEvent r s = t
  unfold parkCloseEvent at h
  try dsimp only at h
  (repeat' split at h) <;> subst h <;> simp

@[simp] theorem testCheck_keeps (r : Nat) (s : State) :
    (testCheck r s).time = s.time ∧ (testCheck r s).poller = s.poller ∧ (testCheck r s).pending = s.pending ∧
    (testCheck r s).notices.edges = s.notices.edges ∧ (testCheck r s).port.receiver = s.port.receiver ∧
    (testCheck r s).port.input = s.port.input ∧ (testCheck r s).port.restartPending = s.port.restartPending ∧
    (testCheck r s).port.crcErrors = s.port.crcErrors ∧ (testCheck r s).port.timeouts = s.port.timeouts ∧
    (testCheck r s).port.overruns = s.port.overruns ∧ (testCheck r s).port.sending = s.port.sending ∧
    (testCheck r s).book.passes = s.book.passes ∧ (testCheck r s).book.retired = s.book.retired ∧
    (testCheck r s).book.serial = s.book.serial ∧ (testCheck r s).book.accounts = s.book.accounts ∧
    (testCheck r s).book.activeCount = s.book.activeCount ∧ (testCheck r s).book.bookLevel = s.book.bookLevel := by
  generalize h : testCheck r s = t
  unfold testCheck at h
  try dsimp only at h
  (repeat' split at h) <;> subst h <;> simp

@[simp] theorem testMinute_keeps (r : Nat) (s : State) :
    (testMinute r s).time = s.time ∧ (testMinute r s).poller = s.poller ∧ (testMinute r s).pending = s.pending ∧
    (testMinute r s).notices.edges = s.notices.edges ∧ (testMinute r s).port.receiver = s.port.receiver ∧
    (testMinute r s).port.input = s.port.input ∧ (testMinute r s).port.restartPending = s.port.restartPending ∧
    (testMinute r s).port.crcErrors = s.port.crcErrors ∧ (testMinute r s).port.timeouts = s.port.timeouts ∧
    (testMinute r s).port.overruns = s.port.overruns ∧ (testMinute r s).port.sending = s.port.sending ∧
    (testMinute r s).book.passes = s.book.passes ∧ (testMinute r s).book.retired = s.book.retired ∧
    (testMinute r s).book.serial = s.book.serial ∧ (testMinute r s).book.accounts = s.book.accounts ∧
    (testMinute r s).book.activeCount = s.book.activeCount ∧ (testMinute r s).book.bookLevel = s.book.bookLevel := by
  generalize h : testMinute r s = t
  unfold testMinute at h
  try dsimp only at h
  (repeat' split at h) <;> subst h <;> simp

@[simp] theorem takeHeldMinute_keeps (r : Nat) (s : State) :
    (takeHeldMinute r s).time = s.time ∧ (takeHeldMinute r s).poller = s.poller ∧
    (takeHeldMinute r s).pending = s.pending ∧ (takeHeldMinute r s).notices.edges = s.notices.edges ∧
    (takeHeldMinute r s).port.receiver = s.port.receiver ∧ (takeHeldMinute r s).port.input = s.port.input ∧
    (takeHeldMinute r s).port.restartPending = s.port.restartPending ∧
    (takeHeldMinute r s).port.crcErrors = s.port.crcErrors ∧ (takeHeldMinute r s).port.timeouts = s.port.timeouts ∧
    (takeHeldMinute r s).port.overruns = s.port.overruns ∧ (takeHeldMinute r s).port.sending = s.port.sending ∧
    (takeHeldMinute r s).book.passes = s.book.passes ∧ (takeHeldMinute r s).book.retired = s.book.retired ∧
    (takeHeldMinute r s).book.serial = s.book.serial ∧ (takeHeldMinute r s).book.accounts = s.book.accounts ∧
    (takeHeldMinute r s).book.activeCount = s.book.activeCount ∧
    (takeHeldMinute r s).book.bookLevel = s.book.bookLevel := by
  generalize h : takeHeldMinute r s = t
  unfold takeHeldMinute at h
  try dsimp only at h
  (repeat' split at h) <;> subst h <;> simp

@[simp] theorem codeRiseCheck_keeps (r : Nat) (s : State) :
    (codeRiseCheck r s).time = s.time ∧ (codeRiseCheck r s).poller = s.poller ∧
    (codeRiseCheck r s).pending = s.pending ∧ (codeRiseCheck r s).notices.edges = s.notices.edges ∧
    (codeRiseCheck r s).port.receiver = s.port.receiver ∧ (codeRiseCheck r s).port.input = s.port.input ∧
    (codeRiseCheck r s).port.restartPending = s.port.restartPending ∧
    (codeRiseCheck r s).port.crcErrors = s.port.crcErrors ∧ (codeRiseCheck r s).port.timeouts = s.port.timeouts ∧
    (codeRiseCheck r s).port.overruns = s.port.overruns ∧ (codeRiseCheck r s).port.sending = s.port.sending ∧
    (codeRiseCheck r s).book.passes = s.book.passes ∧ (codeRiseCheck r s).book.retired = s.book.retired ∧
    (codeRiseCheck r s).book.serial = s.book.serial ∧ (codeRiseCheck r s).book.accounts = s.book.accounts ∧
    (codeRiseCheck r s).book.activeCount = s.book.activeCount ∧ (codeRiseCheck r s).book.bookLevel = s.book.bookLevel := by
  generalize h : codeRiseCheck r s = t
  unfold codeRiseCheck at h
  try dsimp only at h
  (repeat' split at h) <;> subst h <;> simp

@[simp] theorem codeFallCheck_keeps (r : Nat) (s : State) :
    (codeFallCheck r s).time = s.time ∧ (codeFallCheck r s).poller = s.poller ∧
    (codeFallCheck r s).pending = s.pending ∧ (codeFallCheck r s).notices.edges = s.notices.edges ∧
    (codeFallCheck r s).port.receiver = s.port.receiver ∧ (codeFallCheck r s).port.input = s.port.input ∧
    (codeFallCheck r s).port.restartPending = s.port.restartPending ∧
    (codeFallCheck r s).port.crcErrors = s.port.crcErrors ∧ (codeFallCheck r s).port.timeouts = s.port.timeouts ∧
    (codeFallCheck r s).port.overruns = s.port.overruns ∧ (codeFallCheck r s).port.sending = s.port.sending ∧
    (codeFallCheck r s).book.passes = s.book.passes ∧ (codeFallCheck r s).book.retired = s.book.retired ∧
    (codeFallCheck r s).book.serial = s.book.serial ∧ (codeFallCheck r s).book.accounts = s.book.accounts ∧
    (codeFallCheck r s).book.activeCount = s.book.activeCount ∧ (codeFallCheck r s).book.bookLevel = s.book.bookLevel := by
  generalize h : codeFallCheck r s = t
  unfold codeFallCheck at h
  try dsimp only at h
  (repeat' split at h) <;> subst h <;> simp

@[simp] theorem stallCheck_keeps (r : Nat) (s : State) :
    (stallCheck r s).time = s.time ∧ (stallCheck r s).poller = s.poller ∧ (stallCheck r s).pending = s.pending ∧
    (stallCheck r s).notices.edges = s.notices.edges ∧ (stallCheck r s).port.receiver = s.port.receiver ∧
    (stallCheck r s).port.input = s.port.input ∧ (stallCheck r s).port.restartPending = s.port.restartPending ∧
    (stallCheck r s).port.crcErrors = s.port.crcErrors ∧ (stallCheck r s).port.timeouts = s.port.timeouts ∧
    (stallCheck r s).port.overruns = s.port.overruns ∧ (stallCheck r s).port.sending = s.port.sending ∧
    (stallCheck r s).book.passes = s.book.passes ∧ (stallCheck r s).book.retired = s.book.retired ∧
    (stallCheck r s).book.serial = s.book.serial ∧ (stallCheck r s).book.accounts = s.book.accounts ∧
    (stallCheck r s).book.activeCount = s.book.activeCount ∧ (stallCheck r s).book.bookLevel = s.book.bookLevel := by
  generalize h : stallCheck r s = t
  unfold stallCheck at h
  try dsimp only at h
  (repeat' split at h) <;> subst h <;> simp

@[simp] theorem persistSecond_keeps (r : Nat) (s : State) :
    (persistSecond r s).time = s.time ∧ (persistSecond r s).poller = s.poller ∧
    (persistSecond r s).pending = s.pending ∧ (persistSecond r s).notices.edges = s.notices.edges ∧
    (persistSecond r s).port.receiver = s.port.receiver ∧ (persistSecond r s).port.input = s.port.input ∧
    (persistSecond r s).port.restartPending = s.port.restartPending ∧
    (persistSecond r s).port.crcErrors = s.port.crcErrors ∧ (persistSecond r s).port.timeouts = s.port.timeouts ∧
    (persistSecond r s).port.overruns = s.port.overruns ∧ (persistSecond r s).port.sending = s.port.sending ∧
    (persistSecond r s).book.passes = s.book.passes ∧ (persistSecond r s).book.retired = s.book.retired ∧
    (persistSecond r s).book.serial = s.book.serial ∧ (persistSecond r s).book.accounts = s.book.accounts ∧
    (persistSecond r s).book.activeCount = s.book.activeCount ∧ (persistSecond r s).book.bookLevel = s.book.bookLevel := by
  generalize h : persistSecond r s = t
  unfold persistSecond at h
  try dsimp only at h
  (repeat' split at h) <;> subst h <;> simp

@[simp] theorem stallSecond_keeps (r : Nat) (s : State) :
    (stallSecond r s).time = s.time ∧ (stallSecond r s).poller = s.poller ∧ (stallSecond r s).pending = s.pending ∧
    (stallSecond r s).notices.edges = s.notices.edges ∧ (stallSecond r s).port.receiver = s.port.receiver ∧
    (stallSecond r s).port.input = s.port.input ∧ (stallSecond r s).port.restartPending = s.port.restartPending ∧
    (stallSecond r s).port.crcErrors = s.port.crcErrors ∧ (stallSecond r s).port.timeouts = s.port.timeouts ∧
    (stallSecond r s).port.overruns = s.port.overruns ∧ (stallSecond r s).port.sending = s.port.sending ∧
    (stallSecond r s).book.passes = s.book.passes ∧ (stallSecond r s).book.retired = s.book.retired ∧
    (stallSecond r s).book.serial = s.book.serial ∧ (stallSecond r s).book.accounts = s.book.accounts ∧
    (stallSecond r s).book.activeCount = s.book.activeCount ∧ (stallSecond r s).book.bookLevel = s.book.bookLevel := by
  generalize h : stallSecond r s = t
  unfold stallSecond at h
  try dsimp only at h
  (repeat' split at h) <;> subst h <;> simp

@[simp] theorem unitSecond_keeps (r : Nat) (s : State) :
    (unitSecond r s).time = s.time ∧ (unitSecond r s).poller = s.poller ∧ (unitSecond r s).pending = s.pending ∧
    (unitSecond r s).notices.edges = s.notices.edges ∧ (unitSecond r s).port.receiver = s.port.receiver ∧
    (unitSecond r s).port.input = s.port.input ∧ (unitSecond r s).port.restartPending = s.port.restartPending ∧
    (unitSecond r s).port.crcErrors = s.port.crcErrors ∧ (unitSecond r s).port.timeouts = s.port.timeouts ∧
    (unitSecond r s).port.overruns = s.port.overruns ∧ (unitSecond r s).port.sending = s.port.sending ∧
    (unitSecond r s).book.passes = s.book.passes ∧ (unitSecond r s).book.retired = s.book.retired ∧
    (unitSecond r s).book.serial = s.book.serial ∧ (unitSecond r s).book.accounts = s.book.accounts ∧
    (unitSecond r s).book.activeCount = s.book.activeCount ∧ (unitSecond r s).book.bookLevel = s.book.bookLevel := by
  generalize h : unitSecond r s = t
  unfold unitSecond at h
  try dsimp only at h
  (repeat' split at h) <;> subst h <;> simp

@[simp] theorem unitReport_keeps (r code : Nat) (dispatches : Option Nat) (s : State) :
    (unitReport r code dispatches s).time = s.time ∧ (unitReport r code dispatches s).poller = s.poller ∧
    (unitReport r code dispatches s).pending = s.pending ∧
    (unitReport r code dispatches s).notices.edges = s.notices.edges ∧
    (unitReport r code dispatches s).port.receiver = s.port.receiver ∧
    (unitReport r code dispatches s).port.input = s.port.input ∧
    (unitReport r code dispatches s).port.restartPending = s.port.restartPending ∧
    (unitReport r code dispatches s).port.crcErrors = s.port.crcErrors ∧
    (unitReport r code dispatches s).port.timeouts = s.port.timeouts ∧
    (unitReport r code dispatches s).port.overruns = s.port.overruns ∧
    (unitReport r code dispatches s).port.sending = s.port.sending ∧
    (unitReport r code dispatches s).book.passes = s.book.passes ∧
    (unitReport r code dispatches s).book.retired = s.book.retired ∧
    (unitReport r code dispatches s).book.serial = s.book.serial ∧
    (unitReport r code dispatches s).book.accounts = s.book.accounts ∧
    (unitReport r code dispatches s).book.activeCount = s.book.activeCount ∧
    (unitReport r code dispatches s).book.bookLevel = s.book.bookLevel := by
  generalize h : unitReport r code dispatches s = t
  unfold unitReport at h
  try dsimp only at h
  (repeat' split at h) <;> subst h <;> simp

@[simp] theorem unitLink_keeps (r : Nat) (new : Link) (s : State) :
    (unitLink r new s).time = s.time ∧ (unitLink r new s).poller = s.poller ∧ (unitLink r new s).ests = s.ests ∧
    (unitLink r new s).book = s.book ∧ (unitLink r new s).boards = s.boards ∧
    (unitLink r new s).notices = s.notices ∧ (unitLink r new s).port = s.port ∧
    (unitLink r new s).orders = s.orders ∧ (unitLink r new s).pending = s.pending := by
  generalize h : unitLink r new s = t
  unfold unitLink at h
  try dsimp only at h
  (repeat' split at h) <;> subst h <;> simp

@[simp] theorem estimatorMinute_keeps (forward late : Bool) (r : Nat) (s : State) :
    (estimatorMinute forward late r s).time = s.time ∧ (estimatorMinute forward late r s).poller = s.poller ∧
    (estimatorMinute forward late r s).pending = s.pending ∧
    (estimatorMinute forward late r s).notices.edges = s.notices.edges ∧
    (estimatorMinute forward late r s).port.receiver = s.port.receiver ∧
    (estimatorMinute forward late r s).port.input = s.port.input ∧
    (estimatorMinute forward late r s).port.restartPending = s.port.restartPending ∧
    (estimatorMinute forward late r s).port.crcErrors = s.port.crcErrors ∧
    (estimatorMinute forward late r s).port.timeouts = s.port.timeouts ∧
    (estimatorMinute forward late r s).port.overruns = s.port.overruns ∧
    (estimatorMinute forward late r s).port.sending = s.port.sending ∧
    (estimatorMinute forward late r s).book.passes = s.book.passes ∧
    (estimatorMinute forward late r s).book.retired = s.book.retired ∧
    (estimatorMinute forward late r s).book.serial = s.book.serial ∧
    (estimatorMinute forward late r s).book.accounts = s.book.accounts ∧
    (estimatorMinute forward late r s).book.activeCount = s.book.activeCount ∧
    (estimatorMinute forward late r s).book.bookLevel = s.book.bookLevel := by
  generalize h : estimatorMinute forward late r s = t
  unfold estimatorMinute at h
  try dsimp only at h
  (repeat' split at h) <;> subst h <;> simp

@[simp] theorem bookEvent_keeps (r : Nat) (s : State) (e : DayEvent) :
    (bookEvent r s e).time = s.time ∧ (bookEvent r s e).poller = s.poller ∧ (bookEvent r s e).pending = s.pending ∧
    (bookEvent r s e).notices.edges = s.notices.edges ∧ (bookEvent r s e).port.receiver = s.port.receiver ∧
    (bookEvent r s e).port.input = s.port.input ∧ (bookEvent r s e).port.restartPending = s.port.restartPending ∧
    (bookEvent r s e).port.crcErrors = s.port.crcErrors ∧ (bookEvent r s e).port.timeouts = s.port.timeouts ∧
    (bookEvent r s e).port.overruns = s.port.overruns ∧ (bookEvent r s e).port.sending = s.port.sending ∧
    (bookEvent r s e).book.serial = s.book.serial := by
  generalize h : bookEvent r s e = t
  unfold bookEvent at h
  try dsimp only at h
  (repeat' split at h) <;> subst h <;> simp

@[simp] theorem bookEvents_keeps (r : Nat) (es : List DayEvent) (s : State) :
    (es.foldl (bookEvent r) s).time = s.time ∧ (es.foldl (bookEvent r) s).poller = s.poller ∧
    (es.foldl (bookEvent r) s).pending = s.pending := by
  refine ⟨?_, ?_, ?_⟩
  · exact foldl_keeps (fun s => s.time) _ (fun s x => by simp) _ _
  · exact foldl_keeps (fun s => s.poller) _ (fun s x => by simp) _ _
  · exact foldl_keeps (fun s => s.pending) _ (fun s x => by simp) _ _

/-- A taking of an advance leaves the Field Poller and the waiting commands as they are. -/
@[simp] theorem take_keeps (d : Delivery) (s : State) (k : Taking) :
    (take d s k).poller = s.poller ∧ (take d s k).pending = s.pending := by
  cases k <;> simp [take]

@[simp] theorem deliver_keeps (forward : Bool) (s : State) :
    (deliver forward s).2.units = s.units ∧ (deliver forward s).2.poller = s.poller ∧
    (deliver forward s).2.pending = s.pending := by
  unfold deliver
  repeat' split
  all_goals simp [takeDue]

/-- An advance of CLOCK leaves the Field Poller and the waiting commands as they are. -/
@[simp] theorem advance_keeps (forward : Bool) (s : State) :
    (advance forward s).poller = s.poller ∧ (advance forward s).pending = s.pending := by
  unfold advance
  refine ⟨?_, ?_⟩
  · exact (foldl_keeps (fun s => s.poller) _ (fun s x => by simp) _ _).trans (by simp)
  · exact (foldl_keeps (fun s => s.pending) _ (fun s x => by simp) _ _).trans (by simp)

end Sys2Proof.Machine
end

