-- ==== Sys2Proof/Laws/Choices.lean ====
section
/-! SUPPORT. The choices of a board pass: the next line, and the end of a pass (R140, R141). -/

namespace Sys2Proof.Machine

open Sys2Proof.Safety

/-- What the next choice of a pass leaves (R140, R141). -/
theorem chooseNext_nextChoice (s : State) : NextChoice s (chooseNext s) := by
  unfold chooseNext endPass
  constructor
  all_goals try intro a l hp hn hd
  · split; rfl; split; rfl; split <;> simp [startPass]
  · split; rfl; split; rfl; split <;> simp [startPass]
  · rintro (h | ⟨a, l, x, h, hn⟩)
    · simp only [h, true_and]
      exact fun x b hb => ⟨b, hb, rfl⟩
    · simp only [h, hn, true_and]
      exact fun x b hb => ⟨b, hb, rfl⟩
  · simp only [hp, hn, hd, Bool.false_eq_true, if_false, true_and]
    exact fun x b hb => ⟨b, hb, rfl⟩
  · simp only [hp, hn, hd, if_true]; refine ⟨rfl, rfl, rfl, rfl, fun x b hb => ?_⟩
    refine ⟨{ b with kind := b.kind.advance s.units }, ?_, rfl⟩
    simp [startPass, hb]

/-- The next line of a pass: the next of its board, else line 1 of the lowest board above, else none (R141). -/
theorem nextLine_cases : ∀ (table : Table Board) (a l : Nat), table.wf →
    (∀ b, table.find a = some b → l < b.kind.lineCount → nextLine table a l = some (a, l + 1)) ∧
    ((∀ b, table.find a = some b → b.kind.lineCount ≤ l) →
      (∀ x, x ∈ table.keys → a < x → (∀ y ∈ table.keys, a < y → x ≤ y) → nextLine table a l = some (x, 1)) ∧
      ((∀ y ∈ table.keys, y ≤ a) → nextLine table a l = none)) := by
  intro t a l hw
  refine ⟨fun b hb hl => ?_, fun h => ?_⟩
  · unfold nextLine; simp [hb, hl]
  · have hn : nextLine t a l = (boardAbove t a).map (·, 1) := by
      unfold nextLine
      cases hb : t.find a with
      | none => rfl
      | some b => have := h b hb; simp; omega
    rw [hn]; unfold boardAbove
    refine ⟨fun x hx ha hm => ?_, fun hy => ?_⟩
    · suffices t.keys.find? (a < ·) = some x by rw [this]; rfl
      have hw' : List.Pairwise (· < ·) t.keys := hw
      generalize t.keys = ks at *
      clear hw hn h
      induction ks with
      | nil => cases hx
      | cons k ks ih =>
        have hp := List.pairwise_cons.mp hw'
        by_cases hk : a < k
        · have : x = k := by
            rcases List.mem_cons.mp hx with h | h
            · exact h
            · have := hp.1 x h; have := hm k (by simp) hk; omega
          subst this; simp [hk]
        · simp only [List.find?_cons, hk, decide_false]
          rcases List.mem_cons.mp hx with h | h
          · omega
          · exact ih h (fun y hy => hm y (by simp [hy])) hp.2
    · suffices t.keys.find? (a < ·) = none by rw [this]; rfl
      rw [List.find?_eq_none]; intro y hy'; have := hy y hy'; simp; omega

end Sys2Proof.Machine
end

