-- ==== Sys2Proof/Laws/Notices.lean ====
section
/-! SUPPORT. Notice slots: reading after a write, the canonical form of the slot table, the latch, and the grants (R159 to
R163, R175, R176). -/

namespace Sys2Proof.Machine

/-! ### Slots -/

theorem NoteClass.number_lt (c : NoteClass) : c.number < 16 := by cases c <;> decide

theorem NoteClass.number_inj {a b : NoteClass} (h : a.number = b.number) : a = b := by
  cases a <;> cases b <;> first | rfl | (exact absurd h (by decide))

/-- Different slots have different keys. -/
theorem SlotId.key_inj {a b : SlotId} (h : a.key = b.key) : a = b := by
  have ha := a.cls.number_lt
  have hb := b.cls.number_lt
  cases a with
  | mk ca sa =>
    cases b with
    | mk cb sb =>
      simp only [SlotId.key] at h ha hb
      have hs : sa = sb := by omega
      subst hs
      have hc : ca.number = cb.number := by omega
      rw [NoteClass.number_inj hc]

/-- A slot reads as last written, and no other slot is changed. -/
@[simp] theorem slot_setSlot (s : State) (id j : SlotId) (v : Slot) :
    (s.setSlot id v).slot j = if id = j then v else s.slot j := by
  simp only [State.slot, State.setSlot]
  by_cases hk : id = j
  · subst hk
    by_cases hv : v = Slot.reset <;> simp [hv]
  · have hne : id.key ≠ j.key := fun h => hk (SlotId.key_inj h)
    by_cases hv : v = Slot.reset <;> simp [hv, hne, hk]

/-- The slots stand with the notices alone. -/
theorem slot_congr {s t : State} (h : s.notices.slots = t.notices.slots) (id : SlotId) : s.slot id = t.slot id := by
  simp [State.slot, h]

/-- The slot table is in canonical form: keys rising, and no slot listed that has its reset value. -/
def slotsCanonical (s : State) : Prop :=
  s.notices.slots.wf ∧ ∀ x ∈ s.notices.slots, x.2 ≠ Slot.reset

/-- Writing a slot keeps the canonical form. -/
theorem slotsCanonical_setSlot (s : State) (id : SlotId) (v : Slot) (h : slotsCanonical s) :
    slotsCanonical (s.setSlot id v) := by
  obtain ⟨hw, hr⟩ := h
  unfold slotsCanonical State.setSlot
  by_cases hv : v = Slot.reset
  · simp only [if_pos hv]
    exact ⟨Table.wf_remove _ _ hw, fun x hx => hr x (Table.mem_remove _ _ _ hx)⟩
  · simp only [if_neg hv]
    refine ⟨Table.wf_put _ _ _ hw, fun x hx => ?_⟩
    rcases Table.mem_put _ _ _ _ hx with hx | hx
    · rw [hx]; exact hv
    · exact hr x hx

/-! ### The latch -/

/-- A report of a slot already pending changes nothing (R161). -/
theorem setPending_pending (id : SlotId) (level : Bool) (detail : Nat) (s : State)
    (h : (s.slot id).pending.isSome = true) : setPending id level detail s = s := by
  simp [setPending, h]

/-- A report of a masked slot that is not pending is latched in the slot and waits there (R161). -/
theorem setPending_masked (id : SlotId) (level : Bool) (detail : Nat) (s : State)
    (h : (s.slot id).pending = none) (hm : (s.slot id).mask = true) :
    setPending id level detail s =
      s.setSlot id { s.slot id with
        pending := some { clock := s.clockNow.getD 0, level, detail }, sent := false } := by
  simp [setPending, h, hm]

/-- A report of an unmasked slot that is not pending is latched, and the slot joins the send list (R161, R163). -/
theorem setPending_unmasked (id : SlotId) (level : Bool) (detail : Nat) (s : State)
    (h : (s.slot id).pending = none) (hm : (s.slot id).mask = false) :
    setPending id level detail s =
      joinSendList id (s.setSlot id { s.slot id with
        pending := some { clock := s.clockNow.getD 0, level, detail }, sent := false }) := by
  simp [setPending, h, hm]

/-- A level report that equals the image changes nothing (R160). -/
theorem reportLevel_same (cls : NoteClass) (src : Nat) (level : Bool) (detail : Nat) (s : State)
    (h : (s.slot ⟨cls, src⟩).image = level) : reportLevel cls src level detail s = s := by
  simp [reportLevel, h]

/-! ### Grants -/

/-- No place, no grant (R175). -/
theorem grantPlace_full (s : State) (h : s.hasPlace = false) : grantPlace s = s := by
  simp [grantPlace, h]

/-- A place for which nobody waits stays free. -/
theorem grantPlace_idle (s : State) (hw : s.port.waiting = []) (hl : s.notices.sendList = []) : grantPlace s = s := by
  unfold grantPlace
  split
  · simp [hw, hl]
  · rfl

/-- A contested place goes to the party that did not win the last one, and the marker moves (R176). -/
theorem grantPlace_contested (s : State) (hp : s.hasPlace = true) (hw : s.port.waiting ≠ [])
    (hl : s.notices.sendList ≠ []) :
    grantPlace s =
      if s.port.noticesLast then grantReply { s with port := { s.port with noticesLast := false } }
      else grantNotice { s with port := { s.port with noticesLast := true } } := by
  unfold grantPlace
  rw [if_pos hp]
  split <;> simp_all

/-- A reply is granted a place no notice waits for (R176). -/
theorem grantPlace_reply (s : State) (hp : s.hasPlace = true) (hl : s.notices.sendList = []) :
    grantPlace s = grantReply s := by
  unfold grantPlace
  rw [if_pos hp]
  split <;> simp_all [grantReply]

/-- A notice is granted a place no reply waits for (R163, R176). -/
theorem grantPlace_notice (s : State) (hp : s.hasPlace = true) (hw : s.port.waiting = []) :
    grantPlace s = grantNotice s := by
  unfold grantPlace
  rw [if_pos hp]
  split <;> simp_all [grantNotice]

end Sys2Proof.Machine
end

