-- ==== Sys2Proof/Laws/Entries.lean ====
section
/-! SUPPORT. The entries of CONFNOTE and CLEARNOTE: which are sound, which slots they cover, and what an entry does to a
slot (R163, R165, R166). -/

namespace Sys2Proof.Machine

open Sys2Proof.Safety

/-- The class of a code is the one class with that number. -/
theorem NoteClass.ofNumber_some_iff (n : Nat) (c : NoteClass) : NoteClass.ofNumber n = some c ↔ c.number = n := by
  constructor
  · intro h; unfold NoteClass.ofNumber at h; split at h <;> cases h <;> rfl
  · rintro rfl; cases c <;> rfl
/-- No class has the code of ALL. -/
theorem NoteClass.number_ne_all (c : NoteClass) : c.number ≠ 255 := by cases c <;> decide
/-- The list of R158 has every class. -/
theorem NoteClass.mem_all (c : NoteClass) : c ∈ NoteClass.all := by cases c <;> decide

/-- A class and source number pass R165's structure exactly where they name slots. -/
theorem noteTarget_iff (cls src : Nat) : noteTarget cls src = true ↔ NamesSlots cls src := by
  unfold noteTarget NamesSlots
  by_cases h : cls = noteAllByte
  · rw [if_pos h]; unfold noteAllByte at *
    subst h; simp only [decide_eq_true_eq, true_and]
    constructor
    · exact Or.inl
    · rintro (h | ⟨c, h, _⟩); exact h; exact absurd h (NoteClass.number_ne_all c)
  · rw [if_neg h]
    cases hc : NoteClass.ofNumber cls with
    | none =>
      simp only [Bool.false_eq_true, false_iff]
      rintro (h2 | ⟨c, h2, _⟩); exact h h2.1; rw [(NoteClass.ofNumber_some_iff cls c).mpr h2] at hc; cases hc
    | some c =>
      have hn := (NoteClass.ofNumber_some_iff cls c).mp hc
      simp only [Bool.or_eq_true, decide_eq_true_eq, List.contains_iff_mem]
      constructor
      · intro h2; exact Or.inr ⟨c, hn, h2⟩
      · rintro (h2 | ⟨c', h2, h3⟩); exact absurd h2.1 h
        have : c' = c := by have := (NoteClass.ofNumber_some_iff cls c').mpr h2; rw [hc] at this; cases this; rfl
        subst this; exact h3

/-- A code is a level class's exactly where some level class has it. -/
theorem levelClass_iff (n : Nat) : levelClass n = true ↔ ∃ c : NoteClass, c.number = n ∧ c.isLevel = true := by
  unfold levelClass
  cases hc : NoteClass.ofNumber n with
  | none =>
    simp only [Bool.false_eq_true, false_iff]
    rintro ⟨c, h2, _⟩
    rw [(NoteClass.ofNumber_some_iff _ c).mpr h2] at hc; cases hc
  | some c =>
    have hn := (NoteClass.ofNumber_some_iff _ c).mp hc
    constructor
    · intro h; exact ⟨c, hn, h⟩
    · rintro ⟨c', h2, h3⟩
      have : c' = c := by have := (NoteClass.ofNumber_some_iff _ c').mpr h2; rw [hc] at this; cases this; rfl
      subst this; exact h3

/-- When an entry of CONFNOTE is sound (R165, step 2). -/
theorem noteEntrySound_iff (e : NoteEntry) : noteEntrySound e = true ↔
    NamesSlots e.cls e.src ∧ e.mask ≤ 2 ∧ e.edge ≤ 2 ∧ (e.edge = 2 ∨ ∃ c : NoteClass, c.number = e.cls ∧ c.isLevel = true) := by
  unfold noteEntrySound
  rw [Bool.and_eq_true, Bool.and_eq_true, Bool.and_eq_true, noteTarget_iff, Bool.or_eq_true, levelClass_iff]
  simp only [decide_eq_true_eq]
  tauto

/-- Which slots an entry covers. -/
theorem mem_coveredSlots_iff (cls src : Nat) (id : SlotId) : id ∈ coveredSlots cls src ↔ Covers cls src id := by
  obtain ⟨c, n⟩ := id
  unfold coveredSlots Covers
  simp only [List.mem_flatMap, List.mem_map]
  have key : ∀ c' : NoteClass,
      (∃ a ∈ (if src = noteAllByte then c'.sources else [src]), ({ cls := c', src := a } : SlotId) = ⟨c, n⟩) ↔
     c' = c ∧ ((src = 255 ∧ n ∈ c.sources) ∨ (src ≠ 255 ∧ src = n)) := by
    intro c'
    by_cases h : src = 255
    · subst h; rw [if_pos (show (255 : Nat) = noteAllByte from rfl)]
      constructor
      · rintro ⟨a, ha, h⟩; cases h; exact ⟨rfl, Or.inl ⟨rfl, ha⟩⟩
      · rintro ⟨rfl, h | h⟩; exact ⟨n, h.2, rfl⟩; exact absurd rfl h.1
    · have h' : ¬ src = noteAllByte := h
      rw [if_neg h']
      constructor
      · rintro ⟨a, ha, h2⟩; cases h2; exact ⟨rfl, Or.inr ⟨h, (List.mem_singleton.mp ha).symm⟩⟩
      · rintro ⟨rfl, h2 | h2⟩; exact absurd h2.1 h; exact ⟨n, by simp [h2.2], rfl⟩
  simp only [key]
  by_cases h : cls = noteAllByte
  · rw [if_pos h]
    have h' : cls = 255 := h
    constructor
    · rintro ⟨c', _, rfl, h2⟩; exact ⟨Or.inl h', h2⟩
    · rintro ⟨_, h2⟩; exact ⟨c, NoteClass.mem_all c, rfl, h2⟩
  · rw [if_neg h]
    have h' : cls ≠ 255 := h
    constructor
    · rintro ⟨c', hm, rfl, h2⟩
      refine ⟨Or.inr ?_, h2⟩
      cases hc : NoteClass.ofNumber cls with
      | none => rw [hc] at hm; cases hm
      | some x => rw [hc] at hm; simp at hm; subst hm; exact ((NoteClass.ofNumber_some_iff _ _).mp hc).symm
    · rintro ⟨h1 | h1, h2⟩; exact absurd h1 h'
      refine ⟨c, ?_, rfl, h2⟩
      rw [(NoteClass.ofNumber_some_iff cls c).mpr h1.symm]; simp

/-- The slots an entry covers come in the order of R158, each once. -/
theorem coveredSlots_order (cls src : Nat) : (coveredSlots cls src).Pairwise fun x y =>
    x.cls.number < y.cls.number ∨ (x.cls = y.cls ∧ x.src < y.src) := by
  unfold coveredSlots
  have srcs : ∀ c : NoteClass, (if src = noteAllByte then c.sources else [src]).Pairwise (· < ·) := by
    intro c; split
    · cases c <;> decide
    · simp
  rw [List.pairwise_flatMap]
  constructor
  · intro c _
    rw [List.pairwise_map]
    exact (srcs c).imp fun h => Or.inr ⟨rfl, h⟩
  · have : (if cls = noteAllByte then NoteClass.all else (NoteClass.ofNumber cls).toList).Pairwise
        (fun a b => a.number < b.number) := by
      split
      · decide
      · cases NoteClass.ofNumber cls <;> simp
    refine this.imp ?_
    intro a b h x hx y hy
    obtain ⟨_, _, rfl⟩ := List.mem_map.mp hx
    obtain ⟨_, _, rfl⟩ := List.mem_map.mp hy
    exact Or.inl h

/-- Storing a slot moves that slot alone. -/
theorem slotMoved_setSlot (s : State) (id : SlotId) (v : Slot) :
    SlotMoved id v s.notices.sendList s (s.setSlot id v) := by
  refine ⟨by simp, fun j hj => by simp [Ne.symm hj], rfl⟩
/-- The send list is no part of a slot. -/
theorem slot_sendList (s : State) (l : List SlotId) (id : SlotId) :
  State.slot { s with notices := { s.notices with sendList := l } } id = s.slot id := rfl

/-- A slot stored with a latched record that joins the send list becomes due. -/
theorem joinSendList_becomesDue (id : SlotId) (x : Slot) (l : Latched) (s : State) (hx : x.pending = some l) :
    BecomesDue id x l s (joinSendList id (s.setSlot id x)) := by
  have hl' : ∀ v, (s.setSlot id v).notices.sendList = s.notices.sendList := fun _ => rfl
  constructor
  · intro ho
    unfold joinSendList
    rw [hl']
    by_cases hc : id ∈ s.notices.sendList
    · simp only [List.contains_iff_mem, hc, if_true]; exact slotMoved_setSlot _ _ _
    · simp only [List.contains_iff_mem, hc, if_false]
      rw [grantPlace_full _ (by show decide (s.port.output.length < 32) = false; simpa using ho)]
      refine ⟨by rw [slot_sendList]; simp, fun j hj => by rw [slot_sendList]; simp [Ne.symm hj], rfl⟩
  · intro ho hw hl
    unfold joinSendList
    simp only [hl', hl, List.contains_nil, Bool.false_eq_true, if_false, List.nil_append]
    have hg := grantPlace_notice { s.setSlot id x with notices := { (s.setSlot id x).notices with sendList := [id] } }
      (by show decide (s.port.output.length < 32) = true; simpa using ho) hw
    rw [hg]
    unfold grantNotice
    simp only [slot_sendList, slot_setSlot, if_true, hx]
    have : ∀ (t : State) (p : Port) j, State.slot { t with port := p } j = t.slot j := fun _ _ _ => rfl
    refine ⟨?_, ?_, ?_⟩
    · rw [this]; simp
    · intro j hj; rw [this]; simp [Ne.symm hj]
      exact Eq.trans (b := (s.setSlot id x).slot j) rfl ((slot_setSlot s id j _).trans (if_neg (Ne.symm hj)))
    · have e : s = { s with notices := { s.notices with sendList := [] } } := by
        cases s; rename_i a b c d e f n g i j; cases n; simp at hl ⊢; exact hl
      conv_rhs => rw [e]
      rfl
  · intro hi
    refine ⟨_, ?_, by
      unfold joinSendList
      simp only [hl', List.contains_iff_mem, hi, if_false]; rfl⟩
    refine ⟨by rw [slot_sendList]; simp, fun j hj => by rw [slot_sendList]; simp [Ne.symm hj], rfl⟩

/-- What a mask action on one slot does. -/
theorem maskAction_masks (action : Nat) (id : SlotId) (s : State) : Masks action id s (maskAction action s id) := by
  constructor
  · rintro rfl
    refine ⟨?_, fun j hj => ?_, rfl⟩
    · exact (slot_sendList _ _ _).trans (by simp)
    · exact (slot_sendList _ _ _).trans (by simp [Ne.symm hj])
  · rintro l rfl hm hp hs
    have : maskAction 1 s id = joinSendList id (s.setSlot id { s.slot id with mask := false }) := by
      show clearMask id s = _
      unfold clearMask; simp [hm, hp, hs]
    rw [this]; exact joinSendList_becomesDue id _ l s hp
  · rintro rfl h
    have : maskAction 1 s id = s.setSlot id { s.slot id with mask := false } := by
      show clearMask id s = _
      unfold clearMask
      rw [if_neg]
      rcases h with h | h | h <;> simp [h]
    rw [this]; exact slotMoved_setSlot _ _ _
  · rintro rfl; rfl

/-- One entry is its edge action, then its mask action on each slot covered. -/
theorem applyNote_edges (e : NoteEntry) (s : State) : ∃ s1,
    s1 = { s with notices := { s.notices with edges := s1.notices.edges } } ∧
    (∀ c : NoteClass, c.isLevel = true → s1.notices.edges.of c =
      if c.number = e.cls ∧ e.edge ≤ 1 then (if e.edge = 0 then .rise else .both) else s.notices.edges.of c) ∧
    applyNote s e = (coveredSlots e.cls e.src).foldl (maskAction e.mask) s1 := by
  refine ⟨edgeAction e.edge e.cls s, ?_, ?_, rfl⟩
  · unfold edgeAction; split <;> rfl
  · intro c hc
    unfold edgeAction
    split
    · rename_i c' ho he
      have := (NoteClass.ofNumber_some_iff _ _).mp ho
      rw [he, ← this]
      cases c <;> cases c' <;> first | (cases hc; done) | rfl
    · rename_i c' ho he
      have := (NoteClass.ofNumber_some_iff _ _).mp ho
      rw [he, ← this]
      cases c <;> cases c' <;> first | (cases hc; done) | rfl
    · rename_i h0 h1
      rw [if_neg]
      rintro ⟨h2, h3⟩
      have := (NoteClass.ofNumber_some_iff _ _).mpr h2
      have : e.edge = 0 ∨ e.edge = 1 := by omega
      rcases this with h | h
      · exact h0 c (by assumption) h
      · exact h1 c (by assumption) h

/-- The slots a list of slots clears: those of it that are pending. -/
def clears (ids : List SlotId) (s : State) (id : SlotId) : Bool := ids.contains id && (s.slot id).pending.isSome

/-- Clearing a list of slots, one after the other: each pending slot of it is cleared once and leaves the send list, the others
stand, and the count grows by the number of slots cleared (R166). -/
theorem clearSlots_clears (ids : List SlotId) (s : State) (n : Nat) :
    (∀ id, (ids.foldl clearSlot (s, n)).1.slot id =
      if clears ids s id then { s.slot id with pending := none, sent := false } else s.slot id) ∧
    (ids.foldl clearSlot (s, n)).1 = { s with notices := { s.notices with
      slots := (ids.foldl clearSlot (s, n)).1.notices.slots
      sendList := s.notices.sendList.filter fun id => !clears ids s id } } ∧
    (ids.foldl clearSlot (s, n)).2 = n + (ids.toFinset.filter fun id => (s.slot id).pending.isSome = true).card := by
  induction ids generalizing s n with
  | nil => simp [clears]
  | cons a ids ih =>
    rw [List.foldl_cons]
    by_cases ha : (s.slot a).pending.isSome = true
    · have hc : clearSlot (s, n) a =
          (leaveSendList a (s.setSlot a { s.slot a with pending := none, sent := false }), n + 1) := by
        unfold clearSlot; rw [if_pos ha]
      rw [hc]
      set s' := leaveSendList a (s.setSlot a { s.slot a with pending := none, sent := false }) with hs'
      have hslot : ∀ j, s'.slot j = if a = j then { s.slot a with pending := none, sent := false } else s.slot j :=
        fun j => (slot_sendList _ _ _).trans (slot_setSlot s a j _)
      have hclears : ∀ j, clears (a :: ids) s j = (decide (a = j) || clears ids s' j) := by
        intro j
        unfold clears
        rw [hslot]
        by_cases h : a = j
        · subst h; simp [ha]
        · simp [h, Ne.symm h]
      obtain ⟨h1, h2, h3⟩ := ih s' (n + 1)
      refine ⟨fun id => ?_, ?_, ?_⟩
      · rw [h1, hclears, hslot]
        by_cases h : a = id
        · subst h; simp
        · simp [h]
      · rw [h2]
        have : s'.notices.sendList = s.notices.sendList.filter (· ≠ a) := rfl
        have e : (s'.notices.sendList.filter fun id => !clears ids s' id) =
            s.notices.sendList.filter fun id => !clears (a :: ids) s id := by
          rw [this, List.filter_filter]
          refine List.filter_congr fun j _ => ?_
          rw [hclears]
          by_cases h : a = j
          · subst h; simp
          · simp [h, Ne.symm h]
        rw [e]; rfl
      · rw [h3]
        have e : ((a :: ids).toFinset.filter fun id => (s.slot id).pending.isSome = true) =
            insert a (ids.toFinset.filter fun id => (s'.slot id).pending.isSome = true) := by
          ext j
          simp only [List.toFinset_cons, Finset.mem_filter, Finset.mem_insert, hslot]
          by_cases h : a = j
          · subst h; simp [ha]
          · simp [h, Ne.symm h]
        have hn : a ∉ (ids.toFinset.filter fun id => (s'.slot id).pending.isSome = true) := by
          simp [hslot]
        rw [e, Finset.card_insert_of_notMem hn]; omega
    · have hc : clearSlot (s, n) a = (s, n) := by unfold clearSlot; rw [if_neg ha]
      rw [hc]
      have hclears : ∀ j, clears (a :: ids) s j = clears ids s j := by
        intro j
        unfold clears
        by_cases h : a = j
        · subst h; simp [ha]
        · simp [Ne.symm h]
      obtain ⟨h1, h2, h3⟩ := ih s n
      refine ⟨fun id => by rw [h1, hclears], by simpa only [hclears] using h2, ?_⟩
      rw [h3]
      congr 2
      ext j
      simp only [List.toFinset_cons, Finset.mem_filter, Finset.mem_insert]
      by_cases h : j = a
      · subst h; simp [ha]
      · simp [h]

end Sys2Proof.Machine
end

