-- ==== Sys2Proof/Laws/Lengths.lean ====
section
/-! SUPPORT. The lengths of the items of a reply, and that every NOTEINFO reply fits a frame (R167, R169, R183). -/

namespace Sys2Proof.Machine

/-- A number takes the bytes of its width. -/
theorem length_putNum (n v : Nat) : (putNum n v).length = n := by
  induction n generalizing v with
  | zero => rfl
  | succ n ih => simp [putNum, ih]

/-- An optional item takes a presence byte and its width, present or absent. -/
theorem length_putOpt {α : Type} (w : Nat) (f : α → List Byte) (hf : ∀ x, (f x).length = w) (x : Option α) :
    (putOpt w f x).length = w + 1 := by
  cases x <;> simp [putOpt, length_putNum, hf, Nat.add_comm]

/-- A list takes its count byte and its entries, each of one width. -/
theorem length_putList {α : Type} (w : Nat) (f : α → List Byte) (hf : ∀ x, (f x).length = w) (xs : List α) :
    (putList f xs).length = 1 + xs.length * w := by
  simp [putList, length_putNum, List.length_flatMap, hf]

/-- A flag takes one byte. -/
theorem length_putFlag (b : Bool) : (putFlag b).length = 1 := length_putNum _ _

/-- An optional number takes a presence byte and its width. -/
theorem length_putOptNum (w : Nat) (x : Option Nat) : (putOptNum w x).length = w + 1 :=
  length_putOpt w _ (length_putNum w) x

/-- An optional flag takes two bytes. -/
theorem length_putOptFlag (x : Option Bool) : (putOptFlag x).length = 2 := length_putOpt 1 _ length_putFlag x

/-- An entry of NOTEINFO takes 14 bytes, of either kind of class. -/
theorem length_putSlot (level : Bool) (x : Slot × Bool) : (putSlot level x).length = 14 := by
  simp [putSlot, length_putFlag, length_putOptNum, length_putOptFlag]

/-- An optional list takes its presence byte, its count byte and its entries. -/
theorem length_putOptList {α : Type} (w : Nat) (f : α → List Byte) (hf : ∀ x, (f x).length = w) (x : Option (List α)) :
    (putOptList f x).length = 2 + (x.getD []).length * w := by
  cases x <;> simp [putOptList, putOpt, length_putNum, length_putList w f hf]; omega

/-- The part of a NOTEINFO reply that ALL has, by the number of classes it lists. -/
theorem length_putNoteAll (x : Option (Edges × Bool × Nat × List ClassCount)) :
    (putNoteAll x).length = 21 + (x.elim 0 (·.2.2.2.length)) * 7 := by
  have hc : ∀ c, (putClassCount c).length = 7 := fun c => by simp [putClassCount, length_putNum, length_putOptNum]
  cases x <;> simp [putNoteAll, putEdges, length_putOptNum, length_putOptFlag, length_putOptList 7 _ hc]; omega

/-- The part of a NOTEINFO reply that a named class has, by the number of slots it lists. -/
theorem length_putNoteClass (x : Option (Nat × Option Edge × List (Slot × Bool))) :
    (putNoteClass x).length = 6 + (x.elim 0 (·.2.2.length)) * 14 := by
  rcases x with _ | ⟨n, e, xs⟩
  · simp [putNoteClass, length_putOptNum, length_putOptList 14 _ (length_putSlot _)]
  · cases xs <;> simp [putNoteClass, length_putOptNum, length_putOptList 14 _ (length_putSlot _)]; omega

/-- Every NOTEINFO reply keeps to the LENGTH that a frame may have (R167, R169). -/
theorem noteinfoReply_length (cls : Nat) (s : State) : (noteinfoReply cls s).params.length + 2 ≤ Config.lengthMax := by
  have hs : ∀ c, (s.classSlots c).length ≤ 64 := fun c => by
    unfold State.classSlots; rw [List.length_map]; cases c <;> decide
  have h1 : (putCode .done).length = 1 ∧ (putCode .malformed).length = 1 := by decide
  unfold noteinfoReply Config.lengthMax
  split
  · simp [ReplyBody.params, h1, length_putNoteAll, length_putNoteClass]; decide
  · split
    · simp [ReplyBody.params, h1, length_putNoteAll, length_putNoteClass]
    · rename_i c _
      have := hs c
      simp [ReplyBody.params, h1, length_putNoteAll, length_putNoteClass]; omega

end Sys2Proof.Machine
end

