-- ==== Sys2Proof/Laws/Levels.lean ====
section
/-! SUPPORT. Level images through reports and grants (R160, R163), and the receivers of a state change report in any
order (R23; log 4). -/

namespace Sys2Proof.Machine

/-! ### What a grant and a report leave of a slot -/

/-- A reply's grant touches no slot. -/
@[simp] theorem grantReply_slot (s : State) (id : SlotId) : (grantReply s).slot id = s.slot id := by
  unfold grantReply
  split <;> rfl

/-- A notice's grant sets SENT of a slot and leaves its record, mask and image (R163). -/
theorem grantNotice_slot (s : State) (id : SlotId) :
    ((grantNotice s).slot id).pending = (s.slot id).pending ∧ ((grantNotice s).slot id).mask = (s.slot id).mask ∧
    ((grantNotice s).slot id).image = (s.slot id).image := by
  unfold grantNotice
  split
  · exact ⟨rfl, rfl, rfl⟩
  · rename_i j ids h
    have hs : ∀ l : List SlotId, ({ s with notices := { s.notices with sendList := l } } : State).slot id = s.slot id :=
      fun l => slot_congr rfl id
    dsimp only
    split
    · exact ⟨by rw [hs], by rw [hs], by rw [hs]⟩
    · have hc : ∀ (t : State) (p : Port), ({ t with port := p } : State).slot id = t.slot id := fun t p => slot_congr rfl id
      rw [hc, slot_setSlot]
      by_cases hj : j = id
      · subst hj; simp
      · simp [hj, hs]

/-- The grant of a place leaves the record, mask and image of every slot (R176). -/
theorem grantPlace_slot (s : State) (id : SlotId) :
    ((grantPlace s).slot id).pending = (s.slot id).pending ∧ ((grantPlace s).slot id).mask = (s.slot id).mask ∧
    ((grantPlace s).slot id).image = (s.slot id).image := by
  have hc : ∀ (p : Port), ({ s with port := p } : State).slot id = s.slot id := fun p => slot_congr rfl id
  unfold grantPlace
  split
  · split
    · exact ⟨rfl, rfl, rfl⟩
    · rw [grantReply_slot]; exact ⟨rfl, rfl, rfl⟩
    · exact grantNotice_slot s id
    · split
      · rw [grantReply_slot, hc]; exact ⟨rfl, rfl, rfl⟩
      · have h := grantNotice_slot { s with port := { s.port with noticesLast := true } } id
        rw [hc] at h
        exact h
  · exact ⟨rfl, rfl, rfl⟩

/-- Joining the send list leaves the record, mask and image of every slot (R163). -/
theorem joinSendList_slot (j : SlotId) (s : State) (id : SlotId) :
    ((joinSendList j s).slot id).pending = (s.slot id).pending ∧ ((joinSendList j s).slot id).mask = (s.slot id).mask ∧
    ((joinSendList j s).slot id).image = (s.slot id).image := by
  unfold joinSendList
  split
  · exact ⟨rfl, rfl, rfl⟩
  · have h := grantPlace_slot { s with notices := { s.notices with sendList := s.notices.sendList ++ [j] } } id
    have hc : ({ s with notices := { s.notices with sendList := s.notices.sendList ++ [j] } } : State).slot id = s.slot id :=
      slot_congr rfl id
    rw [hc] at h
    exact h

/-- A call for a pending flag leaves the mask and image of every slot (R161). -/
theorem setPending_slot (j : SlotId) (level : Bool) (detail : Nat) (s : State) (id : SlotId) :
    ((setPending j level detail s).slot id).mask = (s.slot id).mask ∧
    ((setPending j level detail s).slot id).image = (s.slot id).image := by
  unfold setPending
  split
  · exact ⟨rfl, rfl⟩
  · dsimp only
    split
    · rw [slot_setSlot]
      by_cases hj : j = id
      · subst hj; simp
      · simp [hj]
    · have h := joinSendList_slot j (s.setSlot j { s.slot j with
        pending := some { clock := s.clockNow.getD 0, level, detail }, sent := false }) id
      rw [h.2.1, h.2.2, slot_setSlot]
      by_cases hj : j = id
      · subst hj; simp
      · simp [hj]

/-- An event report leaves every level image (R160). -/
@[simp] theorem reportEvent_image (cls : NoteClass) (src detail : Nat) (s : State) (id : SlotId) :
    ((reportEvent cls src detail s).slot id).image = (s.slot id).image :=
  (setPending_slot ⟨cls, src⟩ false detail s id).2

/-- A level report gives its slot's image the level reported, and leaves every other image (R160). -/
@[simp] theorem reportLevel_image (cls : NoteClass) (src : Nat) (level : Bool) (detail : Nat) (s : State) (id : SlotId) :
    ((reportLevel cls src level detail s).slot id).image = if id = ⟨cls, src⟩ then level else (s.slot id).image := by
  unfold reportLevel
  dsimp only
  split
  · rename_i h
    by_cases hi : id = ⟨cls, src⟩
    · rw [if_pos hi, hi, h]
    · rw [if_neg hi]
  · have hs : ((s.setSlot ⟨cls, src⟩ { s.slot ⟨cls, src⟩ with image := level }).slot id).image =
        if id = ⟨cls, src⟩ then level else (s.slot id).image := by
      rw [slot_setSlot]
      by_cases hi : id = ⟨cls, src⟩
      · rw [if_pos hi, if_pos hi.symm]
      · rw [if_neg hi, if_neg (fun h => hi h.symm)]
    split
    · rw [(setPending_slot _ _ _ _ id).2, hs]
    · exact hs

/-! ### Orders -/

/-- The wished order is an order of what there is to do, by any names under which the takings differ. -/
theorem arrange_perm_by {α β : Type} [DecidableEq β] (key : α → β) (wish todo : List α) (h : (todo.map key).Nodup) :
    ((arrange (fun a b => decide (key a = key b)) wish todo).map key).Perm (todo.map key) := by
  induction wish generalizing todo with
  | nil => exact .refl _
  | cons w ws ih =>
    unfold arrange
    split
    · rename_i hw
      obtain ⟨x, hx, he⟩ := List.any_eq_true.mp hw
      have he := of_decide_eq_true he
      have hmem : key w ∈ todo.map key := he ▸ List.mem_map_of_mem hx
      have hf : (todo.filter fun t => !decide (key w = key t)).map key = (todo.map key).erase (key w) := by
        rw [h.erase_eq_filter, List.filter_map]
        congr 1
        refine List.filter_congr fun t _ => ?_
        by_cases hk : key w = key t
        · simp [hk]
        · simp [hk, Ne.symm hk]
      refine (List.Perm.cons _ (ih _ ?_)).trans ?_
      · rw [hf]; exact h.erase _
      · rw [hf]; exact (List.perm_cons_erase hmem).symm
    · exact ih _ h

/-- A wished order of things told apart by equality is an order of exactly those things. -/
theorem arrange_perm {α : Type} [DecidableEq α] (wish todo : List α) (h : todo.Nodup) :
    (arrange (fun a b => decide (a = b)) wish todo).Perm todo := by
  simpa using arrange_perm_by id wish todo (by simpa using h)

/-- The receivers of a state change report take it once each, in some order (R23). -/
theorem hearersBy_perm (wish : List Hearer) : (hearersBy wish).Perm hearers :=
  arrange_perm wish hearers (by decide)

end Sys2Proof.Machine
end

