-- ==== Sys2Proof/Laws/Passes.lean ====
section
/-! SUPPORT. The checks of a RESERVE, each with what it means that it passes or fails (R111 to R113). -/

namespace Sys2Proof.Machine

open Sys2Proof.Safety

/-- A RESERVE passes check 2 exactly if its structure is sound (R111). -/
theorem malformed_false_iff (o : ReserveOps) : o.malformed = false ↔ ReserveShaped o := by
  constructor
  · intro h
    simp only [ReserveOps.malformed, guardReserved, Bool.or_eq_false_iff, decide_eq_false_iff_not] at h
    obtain ⟨⟨⟨⟨h1, h2⟩, h3⟩, h4⟩, h5⟩ := h
    exact ⟨by simpa using h1, ⟨by omega, by omega⟩, by omega, by omega⟩
  · rintro ⟨h1, ⟨h2, h3⟩, h4, h5⟩
    simp only [ReserveOps.malformed, guardReserved, Bool.or_eq_false_iff, decide_eq_false_iff_not]
    exact ⟨⟨⟨⟨h1, by omega⟩, by omega⟩, by omega⟩, by omega⟩

/-- A window suits a search exactly if it has room (R113). -/
theorem suits_iff (t p : Nat) (w : Window) : w.suits t p = true ↔ HasRoom t p w := by
  simp only [Window.suits, HasRoom, Bool.and_eq_true, and_assoc, decide_eq_true_eq, Bool.not_eq_true']; rfl

/-- A search finds the lowest window that has room (R113). -/
theorem searchWindow_some_iff (s : State) (r t p i : Nat) (w : Window) :
    s.searchWindow r t p = some (i, w) ↔ LowestWindow (s.rideBook r).windows t p i w := by
  unfold State.searchWindow LowestWindow
  generalize (s.rideBook r).windows = ws
  cases h : ws.findIdx? (Window.suits t p) with
  | none =>
    simp only [false_iff, reduceCtorEq]
    rintro ⟨h1, h2, -⟩
    have := List.findIdx?_eq_none_iff.mp h w (List.mem_of_getElem? h1)
    rw [(suits_iff t p w).mpr h2] at this; cases this
  | some k =>
    obtain ⟨hk, hs, hlt⟩ := List.findIdx?_eq_some_iff_getElem.mp h
    simp only [List.getElem?_eq_getElem hk, Option.map_some, Option.some.injEq, Prod.mk.injEq]
    constructor
    · rintro ⟨rfl, rfl⟩
      refine ⟨List.getElem?_eq_getElem hk, (suits_iff _ _ _).mp hs, fun j x hj hx hr => ?_⟩
      have := hlt j hj
      obtain ⟨hl, rfl⟩ := List.getElem?_eq_some_iff.mp hx
      exact this ((suits_iff _ _ _).mpr hr)
    · rintro ⟨h1, h2, h3⟩
      obtain ⟨hl, rfl⟩ := List.getElem?_eq_some_iff.mp h1
      have : k = i := by
        rcases Nat.lt_trichotomy k i with hh | hh | hh
        · exact absurd ((suits_iff _ _ _).mp hs) (h3 k _ hh (List.getElem?_eq_getElem hk))
        · exact hh
        · exact absurd ((suits_iff _ _ _).mpr h2) (hlt i hh)
      subst this
      exact ⟨rfl, rfl⟩

/-- A search finds nothing exactly if no window has room (R113). -/
theorem searchWindow_none_iff (s : State) (r t p : Nat) :
    s.searchWindow r t p = none ↔ ∀ x ∈ (s.rideBook r).windows, ¬HasRoom t p x := by
  unfold State.searchWindow
  generalize (s.rideBook r).windows = ws
  cases h : ws.findIdx? (Window.suits t p) with
  | none =>
    simp only [true_iff]
    intro x hx hr
    have := List.findIdx?_eq_none_iff.mp h x hx
    rw [(suits_iff t p x).mpr hr] at this; cases this
  | some k =>
    obtain ⟨hk, hs, hlt⟩ := List.findIdx?_eq_some_iff_getElem.mp h
    simp only [List.getElem?_eq_getElem hk, Option.map_some, reduceCtorEq, false_iff]
    intro hh
    exact hh _ (List.getElem_mem hk) ((suits_iff _ _ _).mp hs)

/-- The test for the conflicting pass (R112). -/
theorem onRide_iff (s : State) (r n : Nat) :
  (match s.book.passes.find n with | some p => decide (p.ride = r) | none => false) = true ↔ OnRide s r n := by
  unfold OnRide
  cases s.book.passes.find n <;> simp

/-- The account check refuses by the first of its four that fails (R112). -/
theorem accountRefusal_some_iff (s : State) (k r : Nat) (c : Code) (n : Option Nat) :
    s.accountRefusal k r = some (c, n) ↔ AccountRefuses s k r c n := by
  unfold State.accountRefusal
  cases ha : s.book.accounts.find k with
  | none =>
    have e : Config.accountRecords = 24576 := rfl
    constructor
    · intro h
      by_cases hl : Config.accountRecords ≤ s.book.accounts.length
      · simp only [hl, if_true] at h; simp only [Option.some.injEq, Prod.mk.injEq] at h; obtain ⟨rfl, rfl⟩ := h
        exact .full ha hl
      · simp [hl] at h
    · intro h
      cases h with
      | full _ h => simp [e, h]
      | atLimit a h => rw [ha] at h; cases h
      | duplicate a _ _ _ h => rw [ha] at h; cases h
      | daily a h => rw [ha] at h; cases h
  | some a =>
    simp only
    constructor
    · intro h
      split at h
      · simp only [Option.some.injEq, Prod.mk.injEq] at h; obtain ⟨rfl, rfl⟩ := h
        exact .atLimit a ha (by assumption)
      · rename_i hl
        split at h
        · rename_i m hm
          simp only [Option.some.injEq, Prod.mk.injEq] at h; obtain ⟨rfl, rfl⟩ := h
          obtain ⟨h1, as, bs, h2, h3⟩ := List.find?_eq_some_iff_append.mp hm
          refine .duplicate a as bs m ha (by omega) h2 ((onRide_iff _ _ _).mp h1) ?_
          intro x hx hr
          have := h3 x hx
          rw [Bool.not_eq_true', Bool.eq_false_iff] at this
          exact this ((onRide_iff _ _ _).mpr hr)
        · rename_i hm
          split at h
          · rename_i hd
            simp only [Option.some.injEq, Prod.mk.injEq] at h; obtain ⟨rfl, rfl⟩ := h
            refine .daily a ha (by omega) ?_ hd.1 hd.2
            intro x hx hr
            exact List.find?_eq_none.mp hm x hx ((onRide_iff _ _ _).mpr hr)
          · cases h
    · intro h
      cases h with
      | full h => rw [ha] at h; cases h
      | atLimit a' h h2 => rw [ha] at h; cases h; rw [if_pos h2]
      | duplicate a' as bs m h hl h2 h3 h4 =>
        rw [ha] at h; cases h
        rw [if_neg (by omega)]
        have : s.conflictIn a.active r = some m := by
          unfold State.conflictIn
          refine List.find?_eq_some_iff_append.mpr ⟨(onRide_iff _ _ _).mpr h3, as, bs, h2, fun x hx => ?_⟩
          rw [Bool.not_eq_true', Bool.eq_false_iff]
          exact fun hh => h4 x hx ((onRide_iff _ _ _).mp hh)
        rw [this]
      | daily a' h hl h2 h3 h4 =>
        rw [ha] at h; cases h
        rw [if_neg (by omega)]
        have : s.conflictIn a.active r = none := by
          unfold State.conflictIn
          exact List.find?_eq_none.mpr fun x hx hh => h2 x hx ((onRide_iff _ _ _).mp hh)
        rw [this]; simp [h3, h4]

/-- The account check passes exactly if none of its four fails (R112). -/
theorem accountRefusal_none_iff (s : State) (k r : Nat) : s.accountRefusal k r = none ↔
    ∀ c n, ¬AccountRefuses s k r c n := by
  constructor
  · intro h c n hr
    rw [(accountRefusal_some_iff _ _ _ _ _).mpr hr] at h; cases h
  · intro h
    cases hh : s.accountRefusal k r with
    | none => rfl
    | some x => exact absurd ((accountRefusal_some_iff _ _ _ _ _).mp hh) (h x.1 x.2)

/-- OPEN and HELD pass the check of the ride's STATE (R112). -/
theorem reserveRefusal_none_iff (u : RideState) : reserveRefusal u = none ↔ (u = .opened ∨ ∃ c, u = .held c) := by
  cases u <;> simp [reserveRefusal]

end Sys2Proof.Machine
end

