-- ==== Sys2Proof/Laws/Port.lean ====
section
/-! SUPPORT. The taking of a request and the entry of its reply in one lemma each (R173, R175), and the meaning of every
request row for a request that is offered. -/

namespace Sys2Proof.Machine

open Sys2Proof.Safety

/-- A reply that finds a place enters the output queue (R175). -/
theorem enterReply_place (rcd : Record) (s : State) (h : s.hasPlace = true) :
    enterReply rcd s = { s with port := { s.port with output := s.port.output ++ [rcd] } } := by
  simp [enterReply, h]

/-- A reply that finds no place waits (R175). -/
theorem enterReply_wait (rcd : Record) (s : State) (h : s.hasPlace = false) :
    enterReply rcd s = { s with port := { s.port with waiting := s.port.waiting ++ [rcd] } } := by
  simp [enterReply, h]

/-- A reply entered while none waits is the newest record (R175). -/
theorem replied_enterReply (rcd : Record) (s : State) (h : s.port.waiting = []) : Replied rcd (enterReply rcd s) := by
  unfold Replied
  cases hp : s.hasPlace
  · rw [enterReply_wait _ _ hp]; simp [h]
  · rw [enterReply_place _ _ hp]; simp [h]

/-- An offered request is taken; its frame, if it came in one, has left the input queue (R173; log 5). -/
theorem portStep_offered (tag : Nat) (rq : Request) (s : State) (h : Offered tag rq s) :
    portStep tag rq s = takeRequest tag rq s.popInput := by
  obtain ⟨hm, hi⟩ := h
  unfold portStep
  rw [if_pos hm]
  rcases hi with hi | ⟨f, fs, hi, ht, hp⟩
  · simp [hi, State.popInput_nil s hi]
  · simp [hi, hp, ht]

/-- A request of a class the gate passes on, or outside OPENING, reaches its owner (R8). -/
theorem gateServe_pass (tag : Nat) (rq : Request) (s : State) (h : s.time.day ≠ .opening ∨ gateCode rq = none) :
    gateServe tag rq s = serve tag rq s := by
  unfold gateServe
  rcases h with h | h
  · simp [h]
  · simp [h]

/-- During OPENING a request of a gated class is answered at the gate and changes nothing else (R8). -/
theorem gateServe_gate (tag : Nat) (rq : Request) (s : State) (c : Code) (h : s.time.day = .opening)
    (hc : gateCode rq = some c) : gateServe tag rq s = (s, some (gateReply c s rq)) := by
  simp [gateServe, h, hc]

/-- An offered request whose owner answers: the owner's state, with the reply entered (R173). -/
theorem portStep_answered (tag : Nat) (rq : Request) (s t : State) (body : ReplyBody) (h : Offered tag rq s)
    (hs : gateServe tag rq s.popInput = (t, some body)) :
    portStep tag rq s = enterReply (.reply tag (requestClass rq) body) t := by
  rw [portStep_offered tag rq s h]
  simp [takeRequest, hs]

/-- The port may take a request only while no reply waits (R173). -/
theorem Offered.waiting {tag : Nat} {rq : Request} {s : State} (h : Offered tag rq s) : s.port.waiting = [] := by
  have := h.1
  simp [State.mayTake] at this
  exact this.2

/-- A port that may not take a request leaves it (R173; log 5). -/
theorem portStep_closed (tag : Nat) (rq : Request) (s : State) (h : s.mayTake = false) : portStep tag rq s = s := by
  simp [portStep, h]

end Sys2Proof.Machine
end

