-- ==== Sys2Proof/Laws/Replies.lean ====
section
/-! SUPPORT. A good reply: what each of its receivers leaves unchanged, the hand-over in either order, and the counts and
bounds the statements write with min and max (R43 to R56). -/

namespace Sys2Proof

/-- Growth that saturates is a minimum. -/
theorem saturate_eq_min (bound v : Nat) : saturate bound v = min bound v := by
  unfold saturate
  split <;> omega

/-- A clamp is a maximum of a minimum. -/
theorem clampTo_eq_max_min (lo hi v : Nat) (h : lo ≤ hi) : clampTo lo hi v = max lo (min hi v) := by
  unfold clampTo
  repeat' split
  all_goals omega

/-- ceil, written out (00_scope, Arithmetic). -/
theorem ceilDiv_eq (a b : Nat) (h : 0 < a) : ceilDiv a b = (a + b - 1) / b := by
  unfold ceilDiv
  rcases Nat.eq_zero_or_pos b with rfl | hb
  · simp
  · congr 1
    omega

end Sys2Proof

namespace Sys2Proof.Machine

@[simp] theorem noticeReply_keeps (r : Nat) (f : FieldRecord) (k : ReplyKind) (s : State) :
    (noticeReply r f k s).time = s.time ∧ (noticeReply r f k s).units = s.units ∧
    (noticeReply r f k s).poller = s.poller ∧ (noticeReply r f k s).ests = s.ests ∧
    (noticeReply r f k s).book = s.book ∧ (noticeReply r f k s).boards = s.boards ∧
    (noticeReply r f k s).orders = s.orders ∧ (noticeReply r f k s).pending = s.pending ∧
    (noticeReply r f k s).notices.edges = s.notices.edges ∧ (noticeReply r f k s).port.receiver = s.port.receiver ∧
    (noticeReply r f k s).port.input = s.port.input ∧
    (noticeReply r f k s).port.restartPending = s.port.restartPending ∧
    (noticeReply r f k s).port.crcErrors = s.port.crcErrors ∧ (noticeReply r f k s).port.timeouts = s.port.timeouts ∧
    (noticeReply r f k s).port.overruns = s.port.overruns ∧ (noticeReply r f k s).port.sending = s.port.sending := by
  generalize h : noticeReply r f k s = t
  unfold noticeReply at h
  try dsimp only at h
  (repeat' split at h) <;> subst h <;> simp

@[simp] theorem unitReply_keeps (r : Nat) (prev : Link) (code : Nat) (k : ReplyKind) (s : State) :
    (unitReply r prev code k s).time = s.time ∧ (unitReply r prev code k s).poller = s.poller ∧
    (unitReply r prev code k s).pending = s.pending ∧
    (unitReply r prev code k s).notices.edges = s.notices.edges ∧
    (unitReply r prev code k s).port.receiver = s.port.receiver ∧
    (unitReply r prev code k s).port.input = s.port.input ∧
    (unitReply r prev code k s).port.restartPending = s.port.restartPending ∧
    (unitReply r prev code k s).port.crcErrors = s.port.crcErrors ∧
    (unitReply r prev code k s).port.timeouts = s.port.timeouts ∧
    (unitReply r prev code k s).port.overruns = s.port.overruns ∧
    (unitReply r prev code k s).port.sending = s.port.sending ∧
    (unitReply r prev code k s).book.passes = s.book.passes ∧
    (unitReply r prev code k s).book.retired = s.book.retired ∧
    (unitReply r prev code k s).book.serial = s.book.serial ∧
    (unitReply r prev code k s).book.accounts = s.book.accounts ∧
    (unitReply r prev code k s).book.activeCount = s.book.activeCount ∧
    (unitReply r prev code k s).book.bookLevel = s.book.bookLevel := by
  generalize h : unitReply r prev code k s = t
  unfold unitReply at h
  (repeat' split at h) <;> subst h <;> simp

@[simp] theorem estimatorCounts_keeps (r : Nat) (d : Counters) (s : State) :
    (estimatorCounts r d s).time = s.time ∧ (estimatorCounts r d s).poller = s.poller ∧
    (estimatorCounts r d s).pending = s.pending ∧ (estimatorCounts r d s).notices.edges = s.notices.edges ∧
    (estimatorCounts r d s).port.receiver = s.port.receiver ∧ (estimatorCounts r d s).port.input = s.port.input ∧
    (estimatorCounts r d s).port.restartPending = s.port.restartPending ∧
    (estimatorCounts r d s).port.crcErrors = s.port.crcErrors ∧
    (estimatorCounts r d s).port.timeouts = s.port.timeouts ∧
    (estimatorCounts r d s).port.overruns = s.port.overruns ∧
    (estimatorCounts r d s).port.sending = s.port.sending ∧ (estimatorCounts r d s).book.passes = s.book.passes ∧
    (estimatorCounts r d s).book.retired = s.book.retired ∧ (estimatorCounts r d s).book.serial = s.book.serial ∧
    (estimatorCounts r d s).book.accounts = s.book.accounts ∧
    (estimatorCounts r d s).book.activeCount = s.book.activeCount ∧
    (estimatorCounts r d s).book.bookLevel = s.book.bookLevel := by
  generalize h : estimatorCounts r d s = t
  unfold estimatorCounts at h
  (repeat' split at h) <;> subst h <;> simp

@[simp] theorem estimatorReply_keeps (r : Nat) (prev : Link) (k : ReplyKind) (s : State) :
    (estimatorReply r prev k s).time = s.time ∧ (estimatorReply r prev k s).poller = s.poller ∧
    (estimatorReply r prev k s).pending = s.pending ∧
    (estimatorReply r prev k s).notices.edges = s.notices.edges ∧
    (estimatorReply r prev k s).port.receiver = s.port.receiver ∧
    (estimatorReply r prev k s).port.input = s.port.input ∧
    (estimatorReply r prev k s).port.restartPending = s.port.restartPending ∧
    (estimatorReply r prev k s).port.crcErrors = s.port.crcErrors ∧
    (estimatorReply r prev k s).port.timeouts = s.port.timeouts ∧
    (estimatorReply r prev k s).port.overruns = s.port.overruns ∧
    (estimatorReply r prev k s).port.sending = s.port.sending ∧
    (estimatorReply r prev k s).book.passes = s.book.passes ∧
    (estimatorReply r prev k s).book.retired = s.book.retired ∧
    (estimatorReply r prev k s).book.serial = s.book.serial ∧
    (estimatorReply r prev k s).book.accounts = s.book.accounts ∧
    (estimatorReply r prev k s).book.activeCount = s.book.activeCount ∧
    (estimatorReply r prev k s).book.bookLevel = s.book.bookLevel := by
  generalize h : estimatorReply r prev k s = t
  unfold estimatorReply at h
  (repeat' split at h) <;> subst h <;> simp

/-- The hand-over of a good reply leaves CLOCK and the day, the field records, the passes and the port's input side as they
are, whatever its order. -/
@[simp] theorem handOver_keeps (r : Nat) (prev : Link) (code : Nat) (k : ReplyKind) (s : State) :
    (handOver r prev code k s).time = s.time ∧ (handOver r prev code k s).poller = s.poller ∧
    (handOver r prev code k s).pending = s.pending ∧
    (handOver r prev code k s).notices.edges = s.notices.edges ∧
    (handOver r prev code k s).port.receiver = s.port.receiver ∧
    (handOver r prev code k s).port.input = s.port.input ∧
    (handOver r prev code k s).port.restartPending = s.port.restartPending ∧
    (handOver r prev code k s).port.crcErrors = s.port.crcErrors ∧
    (handOver r prev code k s).port.timeouts = s.port.timeouts ∧
    (handOver r prev code k s).port.overruns = s.port.overruns ∧
    (handOver r prev code k s).port.sending = s.port.sending ∧
    (handOver r prev code k s).book.passes = s.book.passes ∧
    (handOver r prev code k s).book.retired = s.book.retired ∧
    (handOver r prev code k s).book.serial = s.book.serial ∧
    (handOver r prev code k s).book.accounts = s.book.accounts ∧
    (handOver r prev code k s).book.activeCount = s.book.activeCount ∧
    (handOver r prev code k s).book.bookLevel = s.book.bookLevel := by
  generalize h : handOver r prev code k s = t
  unfold handOver at h
  dsimp only at h
  (repeat' split at h) <;> subst h <;> simp

/-- The order drawn depends on the open orders alone. -/
theorem takeHandover_of_orders (s t : State) (h : s.orders = t.orders) : s.takeHandover.1 = t.takeHandover.1 := by
  unfold State.takeHandover
  rw [h]
  split <;> rfl

/-- The two orders of a hand-over, by the order drawn (R49, R54; log 4). -/
theorem handOver_orders (r : Nat) (prev : Link) (code : Nat) (k : ReplyKind) (s : State) :
    (s.takeHandover.1 = true →
      handOver r prev code k s = estimatorReply r prev k (unitReply r prev code k s.takeHandover.2)) ∧
    (s.takeHandover.1 = false →
      handOver r prev code k s = unitReply r prev code k (estimatorReply r prev k s.takeHandover.2)) := by
  constructor <;> intro h <;> simp [handOver, h]

/-- The field record after a good reply (R48, R51, R53, R56). -/
theorem takeGoodReply_record (r : Nat) (rep : Report) (s : State) (f : FieldRecord)
    (hf : s.poller.records.find r = some f) :
    (takeGoodReply r rep s).poller = { s.poller with
      records := s.poller.records.update r fun g =>
        { g with
          link := .up, misses := 0, lastCode := some rep.code, baseValid := true, base := rep.counters
          gap := (replyKind f rep).gap g.gap } } := by
  simp [takeGoodReply, hf, State.modField]

/-- A line that keeps its range has no override to expire (R155). -/
theorem line_expire_of_left (l : Line) (h : ∀ o n, l.override = some o → o.left = .minutes n → 1 ≤ n) :
    l.expire = l := by
  rcases l with ⟨_ | ⟨t, n | _⟩, b, sh, lt⟩
  · rfl
  · have := h _ n rfl rfl
    obtain ⟨m, rfl⟩ : ∃ m, n = m + 1 := ⟨n - 1, by omega⟩
    rfl
  · rfl

end Sys2Proof.Machine
end

