-- ==== Sys2Proof/Laws/Takings.lean ====
section
/-! SUPPORT. The takings of one advance in any order (R2, R15; log 4), and the reports the Return Book takes late (R91;
log 30). -/

namespace Sys2Proof.Machine

open Sys2Proof.Safety

/-- Two names of a taking name the same one if they are one plain name. -/
theorem taking_same (a b : Taking) : Taking.same a b = decide (plain a = plain b) := by
  cases a <;> cases b <;> simp [Taking.same, plain]

/-- The takings of an advance, whatever order is wished, are those there are, each once. -/
theorem takings_perm (wish todo : List Taking) (h : (todo.map plain).Nodup) :
    ((arrange Taking.same wish todo).map plain).Perm (todo.map plain) := by
  have : Taking.same = fun a b => decide (plain a = plain b) := funext fun a => funext fun b => taking_same a b
  rw [this]
  exact arrange_perm_by plain wish todo h

/-- With nothing late there is nothing to take. -/
theorem takeLate_none (pick : StateReport → Bool) (s : State) (h : s.book.late = []) : takeLate pick s = s := by
  have hb : { s.book with late := [] } = s.book := by rw [← h]
  simp [takeLate, h, hb]

/-- One late report that is picked is taken as a report is. -/
theorem takeLate_one (pick : StateReport → Bool) (s : State) (rep : StateReport) (h : s.book.late = [rep])
    (hp : pick rep = true) :
    takeLate pick s = bookHears rep.ride rep.new rep.since { s with book := { s.book with late := [] } } := by
  simp [takeLate, h, hp]

/-- A report that meets no grace end is taken at once, after the late reports of its ride. -/
theorem reportToBook_atOnce (rep : StateReport) (s : State) (h : s.meetsGraceEnd rep = false) :
    reportToBook rep s =
      bookHears rep.ride rep.new rep.since (takeLate (fun x => decide (x.ride = rep.ride)) s) := by
  simp [reportToBook, h]

/-- A report that meets a grace end is left late, or taken as any other; the order is drawn in either case. -/
theorem reportToBook_meets (rep : StateReport) (s : State) (h : s.meetsGraceEnd rep = true) :
    (s.takeGraceOrder.1 = true ∧ reportToBook rep s =
      { s.takeGraceOrder.2 with book := { s.book with late := s.book.late ++ [rep] } }) ∨
    (s.takeGraceOrder.1 = false ∧ reportToBook rep s =
      bookHears rep.ride rep.new rep.since
        (takeLate (fun x => decide (x.ride = rep.ride)) s.takeGraceOrder.2)) := by
  cases hg : s.takeGraceOrder.1 <;> simp [reportToBook, h, hg]

/-- The marking of windows by a report, window by window, in the words of R91. -/
theorem window_mark (e : Nat) (w : Window) : w.mark e = marked e w := by
  unfold Window.mark marked
  cases w.resolved <;> simp

end Sys2Proof.Machine
end

