-- ==== Sys2Proof/Laws/Windows.lean ====
section
/-! SUPPORT. The lead window: what it means that one is found, and that none is (R86, R97). -/

namespace Sys2Proof.Machine

open Sys2Proof.Safety

/-- Once the end of the grid has been taken no lead window is found (R86). -/
theorem leadIndex_ended (b : RideBook) (m : Nat) (h : b.gridEnded = true) : leadIndex b m = none := by
  simp [leadIndex, h]

/-- The lead window is found exactly where it stands (R86, R97). -/
theorem leadIndex_some_iff (b : RideBook) (m i : Nat) : leadIndex b m = some i ↔ LeadWindow b m i := by
  unfold leadIndex LeadWindow
  generalize hws : b.windows = ws
  cases hg : b.gridEnded
  · simp only [Bool.false_eq_true, if_false, true_and]
    cases h : ws.findIdx? fun w => decide (w.startMin ≤ m ∧ m < w.endMin) with
    | some k =>
      obtain ⟨hk, hs, hlt⟩ := List.findIdx?_eq_some_iff_getElem.mp h
      simp only [Option.some.injEq]
      constructor
      · rintro rfl
        refine ⟨_, List.getElem?_eq_getElem hk, Or.inl ⟨(of_decide_eq_true hs).1, (of_decide_eq_true hs).2, ?_⟩⟩
        intro j x hj hx
        obtain ⟨hl, rfl⟩ := List.getElem?_eq_some_iff.mp hx
        simpa using hlt j hj
      · rintro ⟨w, hw, h | h⟩
        · obtain ⟨hl, rfl⟩ := List.getElem?_eq_some_iff.mp hw
          rcases Nat.lt_trichotomy k i with hh | hh | hh
          · exact absurd (of_decide_eq_true hs) (h.2.2 k _ hh (List.getElem?_eq_getElem hk))
          · exact hh
          · exact absurd (decide_eq_true ⟨h.1, h.2.1⟩) (hlt i hh)
        · exact absurd (of_decide_eq_true hs) (h.2.1 _ (List.getElem_mem hk))
    | none =>
      have hn := List.findIdx?_eq_none_iff.mp h
      simp only
      constructor
      · intro h2
        obtain ⟨hk, hs, hlt⟩ := List.findIdx?_eq_some_iff_getElem.mp h2
        refine ⟨_, List.getElem?_eq_getElem hk,
          Or.inr ⟨of_decide_eq_true hs, fun x hx => of_decide_eq_false (hn x hx), ?_⟩⟩
        intro j x hj hx
        obtain ⟨hl, rfl⟩ := List.getElem?_eq_some_iff.mp hx
        have := hlt j hj
        simpa using this
      · rintro ⟨w, hw, h | h⟩
        · exact absurd ⟨h.1, h.2.1⟩ (of_decide_eq_false (hn w (List.mem_of_getElem? hw)))
        · obtain ⟨hl, rfl⟩ := List.getElem?_eq_some_iff.mp hw
          refine List.findIdx?_eq_some_iff_getElem.mpr ⟨hl, decide_eq_true h.1, fun j hj => ?_⟩
          have := h.2.2 j _ hj (List.getElem?_eq_getElem (by omega))
          simpa using this
  · simp

/-- None is found exactly where none stands (R86, R97). -/
theorem leadIndex_none_iff (b : RideBook) (m : Nat) : leadIndex b m = none ↔ ∀ i, ¬LeadWindow b m i := by
  constructor
  · intro h i hi
    rw [(leadIndex_some_iff b m i).mpr hi] at h; cases h
  · intro h
    cases hl : leadIndex b m with
    | none => rfl
    | some i => exact absurd ((leadIndex_some_iff b m i).mp hl) (h i)

end Sys2Proof.Machine
end

