-- ==== Sys2Proof/Tests/Slice0.lean ====
section
/-! SUPPORT. Tests: the well-formedness smoke, the arithmetic of the spec's own tables, one small step per command, and
for every statement with hypotheses a state and operands that meet them. -/

namespace Sys2Proof.Tests

set_option Elab.async false

open Sys2Proof.Machine Sys2Proof.Safety

/-! ### Small states -/

/-- The next state of a command. -/
def after (c : Instr) (s : State) : State :=
  match exec c s with
  | .next t => t
  | .fault _ | .refused _ => s

/-- A request is offered when nothing is queued or waits. -/
theorem offered {tag : Nat} {rq : Request} {s : State} (h : s.mayTake = true) (hi : s.port.input = []) :
    Offered tag rq s := ⟨h, Or.inl hi⟩

/-- After power-on with CLOCK at 10:00 and orders settled. -/
def awake : State :=
  { State.reset with
    time := { TimeBase.reset with clock := 36000, clockState := .running }
    orders := { ticks := [[], []], reports := [[], [], []], handovers := [false], graces := [false], drawn := 0 } }

def config : RideConfig := { RideConfig.default with fullName := txt ['A'], fieldAddress := 7, c := 1200 }

def unit (st : RideState) : RideUnit := { RideUnit.fresh config (some 36000) with state := st }

def field : FieldRecord := { FieldRecord.fresh 7 with link := .up, baseValid := true, lastCode := some 0 }

def est : Estimator := { Estimator.fresh 1200 4 with q := 40, wait := some { value := 10, plus := false } }

def plan : Plan := { openMin := 600, closeMin := 660, len := 15, n := 4 }

/-- A state with ride 1, in the day state given. -/
def ride (d : DayState) (st : RideState) : State :=
  { awake with
    time := { awake.time with day := d, plan := some plan, schedule := buildSchedule plan 15 }
    units := [(1, unit st)]
    poller := { Poller.reset with records := [(1, field)] }
    ests := [(1, est)] }

/-- A day with ride 1 and its four windows of 75 guests. -/
def park (st : RideState) : State :=
  { ride .day st with book := { Book.reset with rides := [(1, { windows := buildWindows plan 15 (unit st) })] } }

def pass (st : PassState) : Pass :=
  { ride := 1, window := 1, account := 9, party := 4, remaining := 3, state := st, issuedAt := 590, firstUse := some 600,
    flexAt := none, retiredAt := none }

/-- The day with pass 5 of account 9 on window 1 of ride 1, at 10:16 and so inside the window's time. -/
def sold (st : PassState) : State :=
  let s := park .opened
  let b : RideBook := { s.rideBook 1 with f := if st = .flex then 3 else 0, u := if st = .flex then 2 else 0 }
  { s with
    time := { s.time with clock := 36960 }
    book := { s.book with
      rides := [(1, { b with windows := b.windows.modify 1 fun w =>
        { w with issued := 4, passes := if st = .issued then [5] else [] } })]
      passes := [(5, pass st)], serial := 6, activeCount := 1
      accounts := [(9, { active := [5], issuedToday := 1, firstSeen := 590 })] } }

/-- RIDE board 2 showing ride 1, HUB board 3, while a pass is in progress. -/
def boarded : State :=
  let s := park .opened
  { s with boards := { s.boards with
      table := [(2, Board.fresh (.ride 1)), (3, Board.fresh (.hub Pane.fresh Pane.fresh))], pass := some (0, 0) } }

/-- A notice of ride 1 pending, its slot unmasked and on the send list, and a reply waiting. -/
def contested (noticesLast : Bool) : State :=
  let id : SlotId := { cls := .state, src := 1 }
  let s := (park .opened).setSlot id
    { pending := some { clock := 1, level := false, detail := 3 }, mask := false, sent := false, image := false }
  { s with
    notices := { s.notices with sendList := [id] }
    port := { s.port with waiting := [.reply 1 1 .bare], noticesLast := noticesLast } }

def ops (s : State) : Option Record := (s.port.output ++ s.port.waiting).getLast?

/-! ### The commands and their words -/

/-- Every check of Instr.wf refuses a term that is ill formed by it. -/
theorem test_wf_refuses_numbers :
    Instr.wf (.setclock 256 0) = false ∧ Instr.wf (.setclock 0 16777216) = false ∧
    Instr.wf (.openday 0 65536 0) = false ∧ Instr.wf (.openday 0 0 65536) = false ∧ Instr.wf (.closeday 256) = false ∧
    Instr.wf (.status 256) = false ∧ Instr.wf (.restartWarm 256) = false ∧ Instr.wf (.restartCold 256) = false ∧
    Instr.wf (.confride 256 1 {}) = false ∧ Instr.wf (.confride 0 256 {}) = false ∧
    Instr.wf (.confrideRemove 0 256) = false ∧ Instr.wf (.fieldinfo 0 256) = false ∧
    Instr.wf (.rideinfo 0 256) = false ∧ Instr.wf (.redeem 0 16777216 1) = false ∧
    Instr.wf (.redeem 0 1 256) = false ∧ Instr.wf (.void 0 16777216) = false ∧ Instr.wf (.lookup 0 16777216) = false ∧
    Instr.wf (.accountinfo 0 4294967296) = false ∧ Instr.wf (.noteinfo 0 256) = false ∧
    Instr.wf (.unknownClass 0 26) = false ∧ Instr.wf (.unknownClass 0 256) = false := by decide

theorem test_wf_refuses_operands :
    Instr.wf (.setrideOpen 0 1 256 0) = false ∧ Instr.wf (.setrideHold 0 1 0 256) = false ∧
    Instr.wf (.setrideResume 0 256 0 0) = false ∧ Instr.wf (.setrideDown 256 1 0 0) = false ∧
    Instr.wf (.setrideClear 0 1 256 0) = false ∧ Instr.wf (.setrideLastentry 0 1 0 256) = false ∧
    Instr.wf (.setrideClose 0 256 0 0) = false ∧ Instr.wf (.setqueue 0 1 0 0 65536) = false ∧
    Instr.wf (.setwindow 0 1 0 0 256 0 0) = false ∧ Instr.wf (.setwindow 0 1 0 0 0 256 0) = false ∧
    Instr.wf (.setwindow 0 1 0 0 0 0 65536) = false ∧ Instr.wf (.windowinfo 0 1 256) = false ∧
    Instr.wf (.reserve 0 1 4294967296 1 0 0) = false ∧ Instr.wf (.reserveQuote 0 1 1 256 0 0) = false ∧
    Instr.wf (.listpasses 0 1 (some 256) 0) = false ∧ Instr.wf (.listpasses 0 1 none 16777216) = false ∧
    Instr.wf (.confboard 0 1 (some 256) none) = false ∧ Instr.wf (.confboard 0 1 none (some 256)) = false ∧
    Instr.wf (.confboardRemove 0 256) = false ∧ Instr.wf (.boardinfo 0 256) = false ∧
    Instr.wf (.confpane 0 1 1 [256] 1 1 false 0) = false ∧ Instr.wf (.confpane 0 1 1 [] 65536 1 false 0) = false ∧
    Instr.wf (.confpane 0 1 1 [] 1 1 false 256) = false ∧
    Instr.wf (.boardtextSet 0 1 1 [] 65536 false) = false ∧ Instr.wf (.boardtextRelease 0 1 256) = false ∧
    Instr.wf (.confnote 0 [⟨256, 0, 0, 0⟩]) = false ∧ Instr.wf (.clearnote 0 [⟨0, 256⟩]) = false := by decide

theorem test_wf_refuses_fields :
    Instr.wf (.stallTimerExpiry 0) = false ∧ Instr.wf (.codeRise 49) = false ∧ Instr.wf (.overrideExpiry 65 1) = false ∧
    Instr.wf (.overrideExpiry 1 0) = false ∧ Instr.wf (.overrideExpiry 1 17) = false ∧
    Instr.wf (.confride 0 1 { c := some 65536 }) = false ∧ Instr.wf (.confride 0 1 { opensAt := some (some 65535) }) = false ∧
    Instr.wf (.confride 0 1 { shortName := some (some []) }) = false ∧
    Instr.wf (.confride 0 1 { fieldAddress := some 256 }) = false ∧
    Instr.wf (.confpark 0 { Params.default with k := 65536 }) = false := by decide

theorem test_wf_refuses_long_texts :
    Instr.wf (.confride 0 1 { fullName := some (List.replicate 256 0x41#8) }) = false ∧
    Instr.wf (.boardtextSet 0 1 1 (List.replicate 256 0x41#8) 0 false) = false ∧
    Instr.wf (.confpark 0 { Params.default with text1 := List.replicate 256 0x41#8 }) = false ∧
    Instr.wf (.confpane 0 1 1 (List.replicate 256 1) 1 1 false 0) = false ∧
    Instr.wf (.confnote 0 (List.replicate 256 ⟨0, 0, 0, 0⟩)) = false := by decide +kernel

/-- Frames of the operations link written out by the layouts of R184, and the requests they carry. -/
theorem test_frames_parse :
    Frame.parse ⟨1, 12, [3#8, 0#8, 1#8, 0#8, 2#8, 4#8, 7#8, 30#8, 1#8]⟩ = .request (.reserve 3 65538 4 7 30 1) ∧
    Frame.parse ⟨1, 13, [0#8, 1#8, 2#8, 8#8]⟩ = .request (.redeem 258 8) ∧
    Frame.parse ⟨1, 1, [1#8, 81#8, 127#8]⟩ = .request (.setclock 86399) ∧
    Frame.parse ⟨1, 13, [0#8, 1#8, 2#8]⟩ = .badLength ∧ Frame.parse ⟨1, 27, []⟩ = .unknownClass ∧
    Frame.parse ⟨1, 0, []⟩ = .unknownClass := by decide +kernel

/-- The lengths of R184: RESERVE and REDEEM replies 27, a pass record 23 bytes, a NOTICE 9. -/
theorem test_reply_lengths :
    (ReplyBody.reserve .done 1 {}).params.length + 2 = 27 ∧ (ReplyBody.redeem .done 1 {}).params.length + 2 = 27 ∧
    (ReplyBody.redeem .done 1 { admitted := some 1, firstUse := some 5 }).params.length + 2 = 27 ∧
    (putPass (5, pass .issued)).length = 23 ∧
    (putNotice ⟨.link, 4⟩ { clock := 1, level := true, detail := 5 }).length + 2 = 9 := by decide +kernel

/-- An item that is absent is its presence byte and the bytes it has, all 0; one that is given changes the presence byte and
not the length (R183). -/
theorem test_absent_items :
    (ReplyBody.windowinfo .unknownRide none).params = 9#8 :: List.replicate 26 0#8 ∧
    (ReplyBody.rideinfo .unknownRide none).params = 9#8 :: List.replicate 107 0#8 ∧
    (putWindowView (some ⟨1, 300, none, 0, 0, false, false, none, [], none⟩)).take 5 = [1#8, 1#8, 1#8, 1#8, 44#8] ∧
    (putWindowView (some ⟨1, 0, none, 0, 0, false, false, none, [], none⟩)).length = (putWindowView none).length ∧
    (putKind (some (.ride 3))) = [1#8, 0#8, 1#8, 3#8] ∧
    (putKind (some (.hub Pane.fresh Pane.fresh))) = [1#8, 1#8, 0#8, 0#8] ∧
    (ReplyBody.confboard .unknownBoard none).params = 10#8 :: List.replicate 6 0#8 ∧
    putTimes (some (1, 2, 3)) = [1#8, 0#8, 1#8, 1#8, 0#8, 2#8, 1#8, 0#8, 3#8] ∧
    putTimes none = List.replicate 9 0#8 ∧
    putWait (some none) = 1#8 :: List.replicate 6 0#8 ∧ putWait (some (some ⟨5, true⟩)) = [1#8, 1#8, 1#8, 0#8, 5#8, 1#8, 1#8] ∧
    (putSlot false (Slot.reset, false)).length = (putSlot true (Slot.reset, false)).length ∧
    (putClassCount ⟨0, 0, none⟩).length = (putClassCount ⟨0, 0, some 0⟩).length := by decide +kernel

/-- The replies to FIELDINFO, BOARDINFO and NOTEINFO have one layout each, of one and of all, apart from their lists (R183). -/
theorem test_one_layout_per_class :
    (ReplyBody.fieldOne .done (some (1, FieldRecord.fresh 9, true))).params.length =
      (ReplyBody.fieldAll .done []).params.length ∧
    (ReplyBody.boardOne .done (some (3, { Board.fresh (.ride 1) with lines := [] }, true))).params.length =
      (ReplyBody.boardAll .done true false (some (3, 1)) []).params.length ∧
    (ReplyBody.boardOne .done (some (3, { Board.fresh (.hub Pane.fresh Pane.fresh) with lines := [] }, true))).params.length =
      (ReplyBody.boardOne .unknownBoard none).params.length ∧
    (ReplyBody.noteOne .malformed 12 none []).params.length =
      (ReplyBody.noteAll .done State.reset.notices.edges true 3 []).params.length := by decide +kernel

/-- The LENGTH of the longest reply of each class whose lists can be long keeps to R169: every slot of BOARD, a HUB board with
all its texts, every ride, every board, every window of a day, and full pages. -/
theorem test_longest_replies :
    let text : Text := List.replicate 20 0x20#8
    let line : Line := { override := some { text, left := .minutes 1 }, blink := 1, shown := some 1, lastText := some text }
    let pane : Pane := { Pane.fresh with list := List.replicate 24 1 }
    let w : Window := Window.build plan 15 1200 1 0
    (noteinfoReply 8 awake).params.length + 2 = 926 ∧
    ∀ b ∈ ([.boardOne .done (some (3, { Board.fresh (.hub pane pane) with
          lines := List.replicate 16 line }, true)),
        .boardAll .done true true (some (3, 1)) (List.replicate 64 (3, Board.fresh (.ride 1))),
        .fieldAll .done (List.replicate 48 (1, FieldRecord.fresh 9)), .setwindow .done 1 (some (0, 95, List.replicate 96 w)),
        .windowinfo .done (some ⟨1, 96, some 15, 0, 0, false, false, none, List.replicate 16 w, some 16⟩),
        .listpasses .done (some (List.replicate 16 (5, pass .issued))) (some 6)] : List ReplyBody),
      b.params.length + 2 ≤ 1000 := by decide +kernel

/-! ### Arithmetic -/

/-- The check values of R170. -/
theorem test_crc :
    crc16 [] = 0xFFFF#16 ∧ crc16 [0x31#8, 0x32#8, 0x33#8, 0x34#8, 0x35#8, 0x36#8, 0x37#8, 0x38#8, 0x39#8] = 0x29B1#16 := by
  decide +kernel

/-- "Smoothing at the limits". -/
theorem test_smoothing :
    smooth 1 1200 120 = 1185 ∧ smooth 4 1200 120 = 1140 ∧ smooth 16 1200 120 = 960 ∧ smooth 4 0 20 = 40 ∧
    smooth 4 95 12 = 95 ∧ smooth 4 99 12 = 98 := by decide

/-- "The wait at the limits". -/
theorem test_wait :
    rawWait 0 1140 = 0 ∧ rawWait 5 7 = 999 ∧ rawWait 9999 8 = 999 ∧ rawWait 1000 80 = 100 ∧ rawWait 970 80 = 97 ∧
    rawWait 300 1000 = 3 ∧ targetWait 100 20 .opened 9 = 120 ∧ targetWait 3 0 (.held .stall) 40 = 43 ∧
    candidate Params.default 3 = ⟨5, false⟩ ∧ candidate Params.default 120 = ⟨120, true⟩ ∧
    candidate Params.default 117 = ⟨120, false⟩ ∧
    candidate { Params.default with step := 10, postMax := 240 } 43 = ⟨50, false⟩ := by decide

/-- Initial rates of R70, and a delta across a wrap of R52. -/
theorem test_rates_and_deltas :
    initialS 1800 4 = 180 ∧ initialSR 1800 4 = 60 ∧ initialS 9999 0 = 1333 ∧ initialSR 9999 12 = 999 ∧
    delta 3 65534 = 5 ∧ delta 7 7 = 0 := by decide

/-- CONFPARK's rounding of R13: the nearest listed value, the smaller of two equally near; POST_MAX down to a multiple. -/
theorem test_stored_params :
    (storedParams { Params.default with step := 3 }).step = 1 ∧
    (storedParams { Params.default with blinkDuty := 63 }).blinkDuty = 75 ∧
    (storedParams { Params.default with l := 25 }).l = 20 ∧ (storedParams { Params.default with l := 0 }).l = 5 ∧
    (storedParams { Params.default with step := 10, postMax := 239 }).postMax = 230 ∧
    NearestListed 25 20 [5, 10, 15, 20, 30, 60] ∧ ¬NearestListed 25 30 [5, 10, 15, 20, 30, 60] ∧
    paramsChanged Params.default = false ∧ paramsChanged { Params.default with k := 0 } = true := by
  unfold NearestListed
  decide +kernel

/-- Board texts of R147 to R149. -/
theorem test_texts :
    waitLine .opened (some ⟨120, true⟩) = txt ['W', 'A', 'I', 'T', ' ', '1', '2', '0', '+', ' ', 'M', 'I', 'N'] ∧
    waitField .closing none = txt ['L', 'A', 'S', 'T'] ∧ hhmm 605 = txt ['1', '0', ':', '0', '5'] ∧
    (hubRow .fullFirst 1 (unit .opened) (some ⟨5, false⟩)).length = 20 := by decide

/-- Placement of R96: from the lead window up, half of CAP at most, U falling by what the holds take. -/
theorem test_placement :
    let b := RideBook.place 616 { windows := buildWindows plan 15 (unit .opened), f := 90, u := 90 }
    b.u = 0 ∧ b.f = 90 ∧ b.windows.map (·.hold) = [0, 37, 37, 16] := by decide

/-- The tick into the minute after GRACE_END delivers the grace end (R14). -/
theorem test_schedule :
    (buildSchedule plan 15).map (·.minute) = [600, 615, 630, 631, 645, 646, 660, 660, 661, 676] := by decide

/-! ### The queue of commands -/

theorem test_step_takes_front :
    step { awake with pending := [.frameBegins, .secondTick] } =
      exec .frameBegins { awake with pending := [.secondTick] } := rfl

theorem test_with_fetch_word : (State.reset.withFetchWord 8 1) = State.reset := by decide +kernel

/-! ### Time and day -/

theorem test_power_on : (after .powerOn (park .opened)).units = [] := by decide +kernel

theorem test_second_tick : (after .secondTick (park .opened)).time.clock = 36001 ∧
    ((after .secondTick (park .opened)).units.find 1).map (·.stall) = some 1 := by decide +kernel

/-- Every kind of second that leaves CLOCK standing has a state. -/
theorem test_witness_ClockStandsStill :
    (∃ s : State, 0 < s.time.hold) ∧ (∃ s : State, s.time.hold = 1) ∧
    ∃ s : State, s.time.hold = 0 ∧ s.time.clockState = .unset :=
  ⟨⟨{ awake with time := { awake.time with hold := 120 } }, by decide⟩,
   ⟨{ awake with time := { awake.time with hold := 1 } }, rfl⟩, ⟨State.reset, rfl, rfl⟩⟩

theorem test_hold_counts :
    (after .holdCountdown { awake with time := { awake.time with hold := 3 } }).time.hold = 2 ∧
    (after .holdEnd { awake with time := { awake.time with hold := 1 } }).time.hold = 0 := by decide +kernel

/-- The day with ride 1 at a second of the clock, the position of the schedule where that second finds it. -/
def parkAt (clock position : Nat) (st : RideState) : State :=
  { park st with time := { (park st).time with clock := clock, position := position } }

/-- Within a minute, into a minute with a list event, into the minute an opening event names, and at the last second. -/
theorem test_witness_SecondTickAdvances :
    ((parkAt 36000 1 .opened).time.hold = 0 ∧ (parkAt 36000 1 .opened).time.clockState = .running ∧
      (parkAt 36000 1 .opened).time.clock < 86400 ∧ (parkAt 36000 1 .opened).units.wf) ∧
    (∃ d, (deliver false (stepClock (parkAt 36899 1 .opened))).1 = d ∧ d.minuteTick = true ∧ d.events = [.windowStart 1]) ∧
    (deliver false (stepClock { parkAt 36899 1 .closed with
      units := [(1, { unit .closed with config := { config with opensAt := some 615 } })] })).1.openings = [1] ∧
    (after .secondTick { awake with time := { awake.time with clock := 86399 } }).time.clock = 0 := by
  refine ⟨by decide, ⟨_, rfl, by decide +kernel⟩, by decide +kernel⟩

/-- Into 10:15 the second window starts, and a minute has passed for the estimator. -/
theorem test_second_tick_delivers :
    ((after .secondTick (parkAt 36899 1 .opened)).rideBook 1).windows.map (·.started) = [false, true, false, false] ∧
    (after .secondTick (parkAt 36899 1 .opened)).time.position = 2 ∧
    ((after .secondTick (parkAt 36899 1 .opened)).ests.find 1).map (·.eligible) = some true := by decide +kernel

/-- One advance of a clock that is being set forward delivers the same, and the minute counts as marked: not eligible (R4,
R67). -/
theorem test_marked_advance :
    ((advance true (parkAt 36899 1 .opened)).rideBook 1).windows.map (·.started) = [false, true, false, false] ∧
    (advance true (parkAt 36899 1 .opened)).time.position = 2 ∧
    ((advance true (parkAt 36899 1 .opened)).ests.find 1).map (·.eligible) = some false ∧
    (advances 2 (park .opened)).time.clock = 36002 := by decide +kernel

theorem test_witness_SetclockOutsideDay : Offered 5 (.setclock 86400) awake ∧ awake.time.day ≠ .day :=
  ⟨offered rfl rfl, by decide⟩

/-- A frame queued at the port offers its request. -/
theorem test_witness_offered_frame :
    Offered 5 (.setclock 3) { awake with port := { awake.port with input := [⟨5, 1, [0#8, 0#8, 3#8]⟩] } } :=
  ⟨rfl, Or.inr ⟨_, _, rfl, rfl, by decide +kernel⟩⟩

theorem test_setclock : ops (after (.setclock 5 86400) awake) =
    some (.reply 5 1 (.setclock .clamped 86399 .running 0)) := by decide +kernel

/-- A distance for each case of the correction: 0, 120, 121, 86,279, 86,280 and a hold in progress. -/
theorem test_witness_SetclockInDay :
    ((park .opened).time.day = .day ∧ (park .opened).time.clock < 86400 ∧ (park .opened).time.clockState = .running) ∧
    (∀ v, Offered 5 (.setclock v) (park .opened)) ∧
    (min 36000 86399 + 86400 - (park .opened).time.clock) % 86400 = 0 ∧
    (min 36120 86399 + 86400 - (park .opened).time.clock) % 86400 = 120 ∧
    (min 36121 86399 + 86400 - (park .opened).time.clock) % 86400 = 121 ∧
    (min 35879 86399 + 86400 - (park .opened).time.clock) % 86400 = 86279 ∧
    (min 35880 86399 + 86400 - (park .opened).time.clock) % 86400 = 86280 ∧
    Offered 5 (.setclock 0) { park .opened with time := { (park .opened).time with hold := 4 } } :=
  ⟨by decide, fun _ => offered rfl rfl, by decide, by decide, by decide, by decide, by decide, offered rfl rfl⟩

theorem test_setclock_in_day :
    (after (.setclock 5 36002) (park .opened)).time.clock = 36002 ∧
    (after (.setclock 5 35880) (park .opened)).time.hold = 120 ∧
    ops (after (.setclock 5 35879) (park .opened)) = some (.reply 5 1 (.setclock .badState 36000 .running 0)) := by
  decide +kernel

/-- With the least room between opening and close, and between close and midnight. -/
theorem test_witness_OpendayTaken :
    Offered 5 (.openday 1364 1424) awake ∧ awake.time.day = .idle ∧ awake.time.clockState = .running ∧
    min 1364 1439 + 60 ≤ min 1424 1439 ∧ min 1424 1439 + awake.time.params.gLate ≤ 1439 :=
  ⟨offered rfl rfl, by decide⟩

theorem test_openday : (after (.openday 5 600 660) awake).time.plan = some plan ∧
    (after (.openday 5 600 660) awake).time.schedule = buildSchedule plan 15 := by decide +kernel

/-- Two list events at one minute: a grace end of a lower window and a window start (R14, R15). -/
theorem test_openday_order :
    ((after (.openday 5 600 660) { awake with time := { awake.time with params := { Params.default with gLate := 14 } } }).time.schedule.filter
      (·.minute = 630)).map (·.event) = [.graceEnd 0, .windowStart 2] := by decide +kernel

/-- The erase over, a plan and a reply pending, every ride CLOSED. -/
def opening : State :=
  { ride .opening .closed with
    time := { (ride .opening .closed).time with erase := some 2, pendingOpen := some (5, .done), clock := 39600 } }

theorem test_witness_OpeningEnds :
    opening.time.day = .opening ∧ opening.time.erase = some 2 ∧ opening.time.plan = some plan ∧
    opening.time.pendingOpen = some (5, .done) ∧ opening.port.waiting = [] ∧
    (∀ x ∈ opening.units, x.2.state = .closed) := by decide

/-- The schedule that the OPENDAY of the plan leaves is the plan's day schedule. -/
theorem test_witness_OpeningSchedule : IsSchedule plan opening.time.params.gLate opening.time.schedule := by
  constructor
  · decide +kernel
  · have : opening.time.schedule.Pairwise fun x y => x.minute < y.minute ∨ (x.minute = y.minute ∧
      (eventWindow x.event).getD 0 < (eventWindow y.event).getD 1000) := by decide +kernel
    refine this.imp fun h => h.imp_right fun h => ⟨h.1, fun i j hi hj => ?_⟩
    simpa [hi, hj] using h.2

/-- At 11:00 the windows that have started and the park close are delivered at once. -/
theorem test_opening_end :
    (after .openingEnd opening).time.closePassed = true ∧
    ((after .openingEnd opening).rideBook 1).windows.map (·.resolved) = [true, true, false, false] ∧
    ((after .openingEnd opening).rideBook 1).windows.map (·.cap) = [75, 75, 75, 75] ∧
    (after .openingEnd opening).time.position = 8 ∧
    ((after .openingEnd opening).rideBook 1).windows.map (fun w => (w.started, w.interrupted)) =
      List.replicate 4 (true, true) ∧
    ops (after .openingEnd opening) = some (.reply 5 2 (.openday .done (some plan))) := by decide +kernel

theorem test_witness_ClosedayCloses :
    Offered 5 .closeday (sold .flex) ∧ (sold .flex).time.day = .day ∧ (sold .flex).book.passes.wf ∧
    ([5] : List Nat).Pairwise (· < ·) ∧
    ∀ n, n ∈ [5] ↔ ∃ p, (sold .flex).book.passes.find n = some p ∧ (p.state = .issued ∨ p.state = .flex) := by
  refine ⟨offered (by decide) rfl, by decide, by decide, by decide, fun n => ?_⟩
  rw [List.mem_singleton]
  constructor
  · rintro rfl
    exact ⟨_, rfl, by decide⟩
  · rintro ⟨p, hp, -⟩
    have hm := Table.mem_of_find _ _ _ hp
    simp only [sold, park, ride, List.mem_singleton, Prod.mk.injEq] at hm
    exact hm.1

theorem test_closeday :
    (after (.closeday 5) (sold .flex)).units.map (·.2.state) = [.closed] ∧
    (after (.closeday 5) (sold .flex)).book.passes.map (·.2.state) = [.expired] ∧
    (after (.closeday 5) (sold .flex)).book.retired = [5] ∧ (after (.closeday 5) (sold .flex)).book.activeCount = 0 ∧
    (after (.closeday 5) (sold .flex)).units.map (fun x => (x.2.testDispatches, x.2.testMinutes)) = [(0, 0)] ∧
    (after (.closeday 5) (sold .flex)).ests.map (·.2.q) = [0] := by decide +kernel

theorem test_witness_ConfparkTaken :
    (Offered 5 (.confpark Params.default) awake ∧ awake.time.day = .idle ∧ paramsWellFormed Params.default = true) ∧
    (Offered 5 (.confpark { Params.default with text1 := [0#8] }) awake ∧
      paramsWellFormed { Params.default with text1 := [0#8] } = false) ∧
    Offered 5 (.confpark Params.default) opening ∧ opening.time.day = .opening :=
  ⟨⟨offered rfl rfl, by decide⟩, ⟨offered rfl rfl, by decide⟩, offered rfl rfl, by decide⟩

theorem test_confpark :
    (after (.confpark 5 { Params.default with k := 20 }) awake).time.params = { Params.default with k := 16 } := by
  decide +kernel

theorem test_witness_OpeningAndParkClose :
    (park .closed).units.find 1 = some (unit .closed) ∧ (park .closed).ests.find 1 = some est ∧
    (park (.held .stall)).units.find 1 = some (unit (.held .stall)) ∧
    (park (.down .code)).units.find 1 = some (unit (.down .code)) ∧ est.q ≠ 0 ∧
    ((park .opened).modEst 1 fun e => { e with q := 0 }).ests.find 1 = some { est with q := 0 } := by decide

/-- The delivery of one list event. -/
def tick (e : DayEvent) : Delivery := { forward := false, minuteTick := true, events := [e], openings := [] }

theorem test_opening_and_park_close :
    (take (tick .parkClose) (park .closed) (.opening 1)).units.map (·.2.state) = [.testing .fromClosed] ∧
    (take (tick .parkClose) (park (.held .stall)) (.parkClose 1)).units.map (·.2.state) = [.closing] ∧
    (take (tick .parkClose) (park .opened) (.parkClose 1)).time.closePassed = true := by decide +kernel

/-! ### Rides -/

theorem test_witness_ConfrideCreates :
    Offered 5 (.confride 48 false { fullName := some [0x7E#8], fieldAddress := some 254 } false) awake ∧
    awake.time.day = .idle ∧ awake.units.find 48 = none ∧
    awake.fieldsMalformed 48 { fullName := some [0x7E#8], fieldAddress := some 254 } = false :=
  ⟨offered rfl rfl, by decide⟩

theorem test_confride_creates :
    ((after (.confride 5 1 { fullName := some [0x41#8], fieldAddress := some 9, c := some 10000 }) awake).ests.find 1).map
      (·.s) = some 999 := by decide +kernel

/-- A change of C in DAY, and a change of address outside DAY. -/
theorem test_witness_ConfrideUpdates :
    (Offered 5 (.confride 1 false { c := some 600 } false) (park .opened) ∧
      (park .opened).units.find 1 = some (unit .opened) ∧ (park .opened).poller.records.find 1 = some field ∧
      (park .opened).confrideRefusal 1 false { c := some 600 } false = none) ∧
    (ride .after .closed).confrideRefusal 1 false { fieldAddress := some 8 } false = none ∧
    ∀ l, State.confrideRefusal { ride .after .closed with poller := { (ride .after .closed).poller with line := l } } 1 false
      { fieldAddress := some 8 } false = none :=
  ⟨⟨offered rfl rfl, by decide⟩, by decide, fun _ => rfl⟩

theorem test_confride_updates :
    ((after (.confride 5 1 { c := some 600 }) (park .opened)).rideBook 1).windows.map (·.cap) = [37, 37, 37, 37] ∧
    ((after (.confride 5 1 { fieldAddress := some 8 }) (ride .after .closed)).poller.records.find 1).map (·.address) =
      some 8 := by decide +kernel

/-- A changed address abandons the ride's own poll and no other; a value out of its range is answered CLAMPED. -/
theorem test_confride_address :
    (∀ x ∈ [(FieldLine.outstanding 1 7 [], FieldLine.reserved), (.outstanding 2 9 [1#8], .outstanding 2 9 [1#8]),
        (.idle, .idle), (.reserved, .reserved)],
      (after (.confride 5 1 { fieldAddress := some 8 })
        { ride .after .closed with poller := { (ride .after .closed).poller with line := x.1 } }).poller.line = x.2) ∧
    ops (after (.confride 5 1 { c := some 10000 }) (ride .after .closed)) =
      some (.reply 5 5 (.confride .clamped (some { config with c := 9999 }))) := by decide +kernel

theorem test_witness_ConfrideRemoves :
    Offered 5 (.confride 1 true {} false) (ride .after .closed) ∧ (ride .after .closed).time.day = .after ∧
    (ride .after .closed).units.find 1 = some (unit .closed) ∧ (ride .after .closed).boardNames 1 = false :=
  ⟨offered rfl rfl, by decide⟩

theorem test_confride_remove : (after (.confrideRemove 5 1) (ride .after .closed)).units = [] := by decide +kernel

/-- A STATE for each action. -/
theorem test_witness_SetrideTakes :
    (∀ rq st, Offered 5 rq (park st)) ∧ (∀ st, (park st).time.day = .day) ∧
    (∀ st, (park st).units.find 1 = some (unit st)) ∧ (∀ st, (park st).ests.find 1 = some est) ∧
    (park .opened).guardHolds 10 75 1 = true ∧ (park .closed).guardHolds 5 0 1 = true ∧
    RideAction.openRide.permitted .closed = true ∧ RideAction.hold.permitted .opened = true ∧
    RideAction.resume.permitted (.held .stall) = true ∧ RideAction.down.permitted .closing = true ∧
    RideAction.clear.permitted (.down .code) = true ∧ RideAction.lastentry.permitted .opened = true ∧
    RideAction.close.permitted (.testing .fromDown) = true :=
  ⟨fun _ _ => offered rfl rfl, fun _ => rfl, fun _ => rfl, fun _ => rfl, by decide +kernel⟩

theorem test_setride_opens :
    (after (.setrideOpen 5 1 0 0) (park .closed)).units.map (·.2.state) = [.testing .fromClosed] ∧
    (after (.setrideHold 5 1 0 0) (park .opened)).units.map (·.2.state) = [.held .operations] ∧
    (after (.setrideResume 5 1 0 0) (park (.held .stall))).units.map (·.2.state) = [.opened] := by decide +kernel

theorem test_setride_downs :
    (after (.setrideDown 5 1 0 0) (park .opened)).units.map (·.2.state) = [.down .operations] ∧
    (after (.setrideClear 5 1 0 0) (park (.down .code))).units.map (·.2.state) = [.testing .fromDown] ∧
    (after (.setrideLastentry 5 1 0 0) (park .opened)).units.map (·.2.state) = [.closing] ∧
    (after (.setrideClose 5 1 0 0) (park .opened)).units.map (·.2.state) = [.closed] := by decide +kernel

theorem test_witness_SetqueueTakes :
    Offered 5 (.setqueue 1 0 0 10000) (park .closing) ∧ (park .closing).time.day = .day ∧
    (park .closing).units.find 1 = some (unit .closing) ∧ (park .closing).ests.find 1 = some est ∧
    (park .closing).guardHolds 0 0 1 = true :=
  ⟨offered rfl rfl, by decide⟩

theorem test_setqueue : ops (after (.setqueue 5 1 0 0 10000) (park .opened)) =
    some (.reply 5 8 (.setqueue .clamped 1 (some (9999, some ⟨10, false⟩)))) := by decide +kernel

theorem test_witness_SetwindowTakes :
    Offered 5 (.setwindow 1 0 0 1 9 0) (park .opened) ∧ (park .opened).time.day = .day ∧
    (park .opened).units.find 1 = some (unit .opened) ∧
    min 9 (((park .opened).rideBook 1).windows.length - 1) = 3 ∧
    ((park .opened).windowRange 1 1 3).all (fun w => !w.resolved) = true ∧ (park .opened).guardHolds 0 0 1 = true :=
  ⟨offered rfl rfl, by decide +kernel⟩

theorem test_setwindow :
    ((after (.setwindow 5 1 0 0 1 9 8000) (park .opened)).rideBook 1).windows.map (·.cap) = [75, 7499, 7499, 7499] := by
  decide +kernel

/-- Where placement begins: in the second window at 10:16, nowhere from the END of the last window on, and nowhere at any
minute once the end of the grid has been taken. -/
theorem test_witness_LeadWindow :
    LeadWindow ((park .opened).rideBook 1) 616 1 ∧ LeadWindow ((park .opened).rideBook 1) 0 0 ∧
    (∀ i, ¬LeadWindow ((park .opened).rideBook 1) 660 i) ∧
    ∀ m i, ¬LeadWindow { (park .opened).rideBook 1 with gridEnded := true } m i := by
  refine ⟨⟨rfl, _, rfl, Or.inl ⟨by decide +kernel, by decide +kernel, ?_⟩⟩,
    ⟨rfl, _, rfl, Or.inr ⟨by decide +kernel, by decide +kernel, fun _ _ h => absurd h (Nat.not_lt_zero _)⟩⟩, ?_,
    fun _ _ h => by cases h.1⟩
  · intro j x hj hx
    obtain rfl : j = 0 := by omega
    obtain rfl := Option.some.inj hx
    decide +kernel
  rintro i ⟨-, w, hw, h⟩
  have hall : ∀ x ∈ ((park .opened).rideBook 1).windows, ¬(x.startMin ≤ 660 ∧ 660 < x.endMin) ∧ ¬660 < x.startMin := by
    decide +kernel
  have hx := hall w (List.mem_of_getElem? hw)
  rcases h with h | h
  · exact hx.1 ⟨h.1, h.2.1⟩
  · exact hx.2 h.1

/-- The end of the grid is taken, and the day runs past midnight: WINDOWINFO shows no lead window, and the free sum is 0. -/
theorem test_grid_end :
    (let s := take (tick .gridEnd) (park .opened) (.windows 1)
     (s.rideBook 1).gridEnded = true ∧ (s.rideBook 1).slotsLevel = true ∧
     let late := { s with time := { s.time with clock := 60 } }
     (late.windowView 1 0).lead = none ∧ freeSum (late.rideBook 1) late.minute = 0) ∧
    ((park .opened).windowView 1 0).lead = some 0 ∧ freeSum ((park .opened).rideBook 1) 600 = 300 ∧
    (park .opened).book.rides.find 1 = some ((park .opened).rideBook 1) ∧ (park .opened).slotsHold 1 = false := by
  decide +kernel

/-! ### Window events -/

/-- The day with pass 5 on the second window of ride 1, the first resolved, at the grace end of the second. -/
def due (interrupted : Bool) : State :=
  let s := sold .issued
  { (s.modWindow 1 0 fun w => { w with resolved := true }).modWindow 1 1 fun w => { w with interrupted := interrupted } with
    time := { s.time with clock := 38760 } }

/-- The last second of the grace end of the second window, with the order of a grace end and a report settled. -/
def graceSecond (graceFirst : Bool) (ticks : List Taking) : State :=
  { due false with
    time := { (due false).time with clock := 38759, position := 5 }
    orders := { awake.orders with graces := [graceFirst], ticks := [ticks] } }

def downReport : StateReport := { ride := 1, prev := .opened, new := .down .operations, since := some 38759 }

/-- A window to start, resolved and not; a report that meets a grace end and one that does not; a late report. -/
theorem test_witness_WindowStartsAndMarks :
    (due false).units.find 1 = some (unit .opened) ∧ (((due false).rideBook 1).windows[0]?).map (·.resolved) = some true ∧
    (((due false).rideBook 1).windows[1]?).map (·.resolved) = some false ∧
    (RideState.down .operations).inService = false ∧ (due false).time.clockState = .running ∧ (due false).book.late = [] ∧
    (graceSecond true []).meetsGraceEnd downReport = true ∧
    (due false).meetsGraceEnd { downReport with since := some 38760 } = false ∧
    { (graceSecond true []).book with late := [downReport] }.late = [downReport] := by decide +kernel

/-- The ride goes DOWN in the second that ends its window's grace: the pass is FLEX where the report is taken first, as it
is made or at the next advance, and EXPIRED where the grace end is (R91). -/
theorem test_grace_orders :
    (∀ b, (after (.setrideDown 5 1 0 0) (graceSecond b [])).book.late = if b then [downReport] else []) ∧
    ((after .secondTick (after (.setrideDown 5 1 0 0) (graceSecond false []))).book.passes.map (·.2.state)) = [.flex] ∧
    ((after .secondTick (after (.setrideDown 5 1 0 0) (graceSecond true []))).book.passes.map (·.2.state)) = [.flex] ∧
    ((after .secondTick (after (.setrideDown 5 1 0 0) (graceSecond true [.windows 1]))).book.passes.map (·.2.state)) =
      [.expired] ∧
    (after .secondTick (after (.setrideDown 5 1 0 0) (graceSecond true [.windows 1]))).book.late = [] := by decide +kernel

/-- A window that was interrupted, one that was not, and a window already resolved. -/
theorem test_witness_WindowResolves :
    ∀ b, (due b).units.find 1 = some (unit .opened) ∧ (due b).ests.find 1 = some est ∧ (due b).book.late = [] ∧
      (((due b).rideBook 1).windows[1]?).map (fun w => (w.interrupted, w.resolved, w.passes)) = some (b, false, [5]) ∧
      (((due b).rideBook 1).windows[0]?).map (·.resolved) = some true ∧ (due b).book.passes.find 5 ≠ none := by
  decide +kernel

theorem test_window_resolves :
    (take (tick (.graceEnd 1)) (due true) (.windows 1)).book.passes.map (·.2.state) = [.flex] ∧
    ((take (tick (.graceEnd 1)) (due true) (.windows 1)).rideBook 1).f = 3 ∧
    ((take (tick (.graceEnd 1)) (due true) (.windows 1)).rideBook 1).u = 0 ∧
    (take (tick (.graceEnd 1)) (due false) (.windows 1)).book.passes.map (·.2.state) = [.expired] ∧
    (take (tick (.graceEnd 1)) (due false) (.windows 1)).book.retired = [5] := by decide +kernel

/-! ### Passes -/

/-- The window found from 10:00 with a wait of 10 and LEAD 30: the one that ends after 10:30. -/
theorem test_witness_ReserveFindsLowestWindow :
    ∃ f, (park .opened).reserveFind { ride := 1, token := 9, party := 8, guard := 0, operand := 0, flags := 0 } = .ok f ∧
      f.index = 2 ∧ f.t = 630 := ⟨_, rfl, by decide +kernel⟩

/-- A RESERVE of ride 1 by account 9. -/
def wish (party guard operand : Nat) : ReserveOps :=
  { ride := 1, token := 9, party, guard, operand, flags := 0 }

/-- The refusal of a RESERVE. -/
def refusal (s : State) (o : ReserveOps) : Option (Code × ReserveView) :=
  match s.reserveFind o with
  | .ok _ => none
  | .error x => some x

/-- The day with pass 5 of account 9 on ride 1, under limits A and D. -/
def limited (a d : Nat) (onRide : Bool) : State :=
  let s := sold .issued
  { s with
    time := { s.time with params := { s.time.params with a := a, d := d } }
    book := { s.book with passes := [(5, { pass .issued with ride := if onRide then 1 else 2 })] } }

/-- Each check of a RESERVE refuses, in its order. -/
theorem test_witness_ReserveRefusals :
    refusal opening (wish 1 0 0) = some (.busy, {}) ∧ refusal (ride .after .closed) (wish 9 0 0) = some (.noDay, {}) ∧
    (∀ o ∈ [wish 0 0 0, wish 9 0 0, wish 1 11 0, { wish 1 0 0 with token := 0 }, { wish 1 0 0 with flags := 2 }],
      refusal (park .opened) o = some (.malformed, {})) ∧
    refusal (park .opened) { wish 1 0 0 with ride := 2 } = some (.unknownRide, { party := some 1 }) ∧
    refusal (park (.down .code)) (wish 1 1 0) = some (.guardFalse, { party := some 1, ride := some (.down .code) }) ∧
    refusal (park (.down .code)) (wish 1 4 0) = some (.rideDown, { party := some 1, ride := some (.down .code) }) ∧
    refusal (park (.testing .fromDown)) (wish 1 0 0) =
      some (.rideNotReady, { party := some 1, ride := some (.testing .fromDown) }) ∧
    refusal (park .closing) (wish 1 0 0) = some (.rideClosed, { party := some 1, ride := some .closing }) ∧
    refusal { park (.held .stall) with ests := [(1, { est with wait := none })] } (wish 1 0 0) =
      some (.noData, { party := some 1 }) ∧
    refusal (limited 1 0 true) (wish 1 0 0) = some (.activeLimit, { party := some 1 }) ∧
    refusal (limited 2 0 true) (wish 1 0 0) = some (.duplicate, { party := some 1, conflict := some 5 }) ∧
    refusal (limited 2 1 false) (wish 1 0 0) = some (.dailyLimit, { party := some 1 }) ∧
    refusal { park .opened with book := Book.reset } (wish 8 0 0) =
      some (.soldOut, { party := some 8, t := some 630 }) ∧
    refusal (limited 2 2 false) (wish 1 0 0) = none ∧ refusal (park (.held .stall)) (wish 8 10 75) = none := by
  decide +kernel

/-- Each account check refuses: a full account table, the limit A, a pass on the ride, the limit D. -/
theorem test_witness_AccountRefuses :
    (∃ s, AccountRefuses s 9 1 .accountFull none) ∧ AccountRefuses (limited 1 0 true) 9 1 .activeLimit none ∧
    AccountRefuses (limited 2 0 true) 9 1 .duplicate (some 5) ∧ AccountRefuses (limited 2 1 false) 9 1 .dailyLimit none := by
  have find_replicate : ∀ (n : Nat) (x : Account), Table.find (List.replicate n (1, x)) 9 = none := by
    intro n x
    induction n with
    | zero => rfl
    | succ n ih => simpa [List.replicate_succ, Table.find] using ih
  have other : ∀ m ∈ [5], ¬OnRide (limited 2 1 false) 1 m := by
    rintro m hm ⟨p, hp, hr⟩
    obtain rfl := List.mem_singleton.mp hm
    obtain rfl := Option.some.inj hp
    exact absurd hr (by decide)
  exact ⟨⟨{ park .opened with book := { (park .opened).book with
      accounts := List.replicate 24576 (1, { active := [], issuedToday := 0, firstSeen := 0 }) } },
      .full (find_replicate _ _) (Nat.le_of_eq List.length_replicate.symm)⟩,
    .atLimit _ rfl (by decide), .duplicate _ [] [] 5 rfl (by decide) rfl ⟨_, rfl, rfl⟩ (by simp),
    .daily _ rfl (by decide) other (by decide) (by decide)⟩

/-- Guards 7, 8 and 10 at the wait of 10 and the 75 free guests, and each guard on a STATE or on LINK true and false. -/
theorem test_guards :
    (∀ x ∈ [(0, 0, true), (1, 0, true), (2, 0, false), (3, 0, false), (4, 0, false), (5, 0, false), (6, 0, false), (7, 10, true),
        (7, 11, false), (8, 10, false), (8, 11, true), (9, 0, false), (10, 75, true), (10, 76, false)],
      (park .opened).guardHolds x.1 x.2.1 1 = x.2.2) ∧
    (park .closed).guardHolds 2 0 1 = true ∧ (park (.held .operations)).guardHolds 3 0 1 = true ∧
    (park (.down .operations)).guardHolds 4 0 1 = true ∧ (park .closed).guardHolds 5 0 1 = true ∧
    (park (.testing .fromClosed)).guardHolds 6 0 1 = true ∧ (park .closed).guardHolds 10 0 1 = false ∧
    State.guardHolds { park .opened with poller := { Poller.reset with records := [(1, { field with link := .lost })] } }
      9 0 1 = true := by decide +kernel

theorem test_witness_ReserveIssues :
    Offered 5 (.reserve 1 9 8 0 0 0) (park .opened) ∧ (park .opened).book.noSpace = false ∧
    ∃ f, (park .opened).reserveFind { ride := 1, token := 9, party := 8, guard := 0, operand := 0, flags := 0 } = .ok f :=
  ⟨offered rfl rfl, by decide +kernel, _, rfl⟩

/-- The day with the serial numbers used up, and with the pass table full and nothing in the retirement queue. -/
def full (bySerial : Bool) : State :=
  let s := park .opened
  { s with book := { s.book with
      serial := if bySerial then 16777216 else 6
      passes := if bySerial then [] else List.replicate 49152 (1, pass .issued) } }

/-- A RESERVE that finds its window and no place for the pass, and one that a guard refuses, quoted or not. -/
theorem test_witness_ReserveRefused :
    (Offered 5 (.reserve 1 9 8 0 0 0) (full true) ∧ (full true).book.noSpace = true ∧
      refusal (full true) (wish 8 0 0) = none) ∧
    (16777216 ≤ (full true).book.serial ∧ ¬16777216 ≤ (full false).book.serial ∧
      49152 ≤ (full false).book.passes.length ∧ (full false).book.retired = []) ∧
    ∀ g, Offered 5 (.reserve 1 9 8 3 0 g) (park .opened) ∧
      (g = 0 ∨ g = 1 → refusal (park .opened) { wish 8 3 0 with flags := g } =
        some (.guardFalse, { party := some 8, ride := some .opened })) := by
  refine ⟨⟨offered rfl rfl, by decide +kernel, by decide +kernel⟩,
    ⟨by decide, by decide, Nat.le_of_eq List.length_replicate.symm, rfl⟩, fun g => ⟨offered rfl rfl, ?_⟩⟩
  rintro (rfl | rfl) <;> decide +kernel

theorem test_reserve_refused :
    after (.reserve 5 1 9 8 0 0) (full true) =
      enterReply (.reply 5 12 (.reserve .bookFull 1 { party := some 8, t := some 630 })) (full true) ∧
    after (.reserve 5 1 9 8 3 0) (park .opened) = enterReply (.reply 5 12 (.reserve .guardFalse 1
      { party := some 8, ride := some .opened })) (park .opened) := by decide +kernel

theorem test_witness_QuoteChangesNothing :
    Offered 5 (.reserve 1 9 8 0 0 1) (park .opened) ∧
    ∃ f, (park .opened).reserveFind { ride := 1, token := 9, party := 8, guard := 0, operand := 0, flags := 1 } = .ok f :=
  ⟨offered rfl rfl, _, rfl⟩

theorem test_reserve :
    (after (.reserve 5 1 9 8 0 0) (park .opened)).book.passes.find 1 = some
      { ride := 1, window := 2, account := 9, party := 8, remaining := 8, state := .issued, issuedAt := 600,
        firstUse := none, flexAt := none, retiredAt := none } ∧
    after (.reserveQuote 5 1 9 8 0 0) (park .opened) = enterReply (.reply 5 12 (.reserve .done 1
      { window := some 2, startMin := some 630, endMin := some 645, party := some 8, t := some 630 })) (park .opened) := by
  decide +kernel

/-- An ISSUED pass with guests left, the last guests of an ISSUED pass, and a FLEX pass. -/
theorem test_witness_RedeemAdmits :
    (∀ st rq, Offered 5 rq (sold st)) ∧ (sold .issued).time.day = .day ∧
    (sold .issued).book.passes.find 5 = some (pass .issued) ∧ (sold .flex).book.passes.find 5 = some (pass .flex) ∧
    ((sold .issued).windowOf (pass .issued)).map (fun w => (sold .issued).dayPassed w.graceEnd) = some false ∧
    (sold .issued).redeemCheck (pass .issued) = none ∧ (sold .flex).redeemCheck (pass .flex) = none ∧
    2 = min 2 (pass .issued).remaining ∧ 3 = min 8 (pass .issued).remaining :=
  ⟨fun st _ => by cases st <;> exact offered rfl rfl, by decide +kernel⟩

/-- The pass past the grace end of its window, resolved by the request itself: it is EXPIRED, or FLEX and redeemed. -/
theorem test_witness_EarlyResolution :
    (∀ b rq, Offered 5 rq (due b)) ∧ (due false).time.day = .day ∧
    (∀ b, (due b).book.passes.find 5 = some (pass .issued) ∧
      (((due b).windowOf (pass .issued)).map fun w => (due b).dayPassed w.graceEnd) = some true ∧
      ((take (tick (.graceEnd 1)) (due b).popInput (.windows 1)).book.passes.find 5).map (fun p => (p.state, p.remaining)) =
        some (if b then .flex else .expired, 3)) ∧
    ([RideState.opened, .down .code].map fun st =>
      let e := take (tick (.graceEnd 1)) ((due true).modUnit 1 fun u => { u with state := st }).popInput (.windows 1)
      (e.book.passes.find 5).map e.redeemCheck) =
      [some none, some (some (.rideDown, some (.down .code)))] :=
  ⟨fun b _ => by cases b <;> exact offered rfl rfl, by decide +kernel⟩

theorem test_early_resolution :
    (∀ b, ((after (.redeem 5 5 2) (due b)).book.passes.find 5).map (fun p => (p.state, p.remaining)) =
        some (if b then (.flex, 1) else (.expired, 3)) ∧
      ((after (.void 5 5) (due b)).book.passes.find 5).map (·.state) = some (if b then .voided else .expired) ∧
      ((after (.redeem 5 5 2) (due b)).rideBook 1).windows.map (·.resolved) = [true, true, false, false]) ∧
    ops (after (.void 5 5) (due false)) = some (.reply 5 14 (.void .badState 5
      { ride := some 1, window := some 1, state := some .expired, remaining := some 3 })) := by decide +kernel

/-- The checks of an active pass: before its window, after the park has closed, and by the STATE of its ride. -/
theorem test_witness_RedeemChecks :
    (let s := { sold .issued with time := { (sold .issued).time with clock := 35999 } }
     s.windowOf (pass .issued) ≠ none ∧ s.time.plan = some plan ∧ s.units.find 1 = some (unit .opened) ∧
       State.redeemCheck { s with time := { s.time with params := { s.time.params with gEarly := 15 } } } (pass .issued) =
         some (.tooEarly, none)) ∧
    (let s := fun m => { sold .flex with time := { (sold .flex).time with clock := 60 * m } }
     (s 675).redeemCheck (pass .flex) = none ∧ (s 676).redeemCheck (pass .flex) = some (.tooLate, none) ∧
       State.dayPassed { s 0 with time := { (s 0).time with closePassed := true } } 676 = true ∧
       (s 0).dayPassed 676 = false) ∧
    ([.down .code, .testing .fromDown, .closed, .closing, .held .stall].map fun st =>
        (State.redeemCheck ((sold .issued).modUnit 1 fun u => { u with state := st }) (pass .issued)).map (·.1)) =
      [some .rideDown, some .rideNotReady, some .rideClosed, none, none] := by decide +kernel

theorem test_redeem :
    ((after (.redeem 5 5 2) (sold .issued)).book.passes.find 5).map (·.remaining) = some 1 ∧
    ((after (.redeem 5 5 8) (sold .issued)).book.passes.find 5).map (·.state) = some .redeemed ∧
    ((after (.redeem 5 5 2) (sold .flex)).rideBook 1).f = 1 ∧
    ((after (.redeem 5 5 2) (sold .flex)).rideBook 1).u = 1 := by decide +kernel

theorem test_witness_VoidCancels :
    Offered 5 (.void 5) (sold .issued) ∧ Offered 5 (.void 5) (sold .flex) ∧ (sold .flex).time.day = .day ∧
    ((sold .issued).windowOf (pass .issued)).map (fun w => (sold .issued).dayPassed w.graceEnd) = some false :=
  ⟨offered rfl rfl, offered rfl rfl, by decide +kernel⟩

theorem test_void :
    ((after (.void 5 5) (sold .issued)).book.passes.find 5).map (·.state) = some .voided ∧
    ((after (.void 5 5) (sold .issued)).rideBook 1).windows.map (·.issued) = [0, 1, 0, 0] ∧
    ((after (.void 5 5) (sold .flex)).rideBook 1).f = 0 := by decide +kernel

/-! ### Queries and the gate -/

theorem test_queries :
    ops (after (.fieldinfo 5 1) awake) = some (.reply 5 7 (.fieldOne .unknownRide none)) ∧
    ops (after (.rideinfo 5 1) awake) = some (.reply 5 9 (.rideinfo .unknownRide none)) ∧
    ops (after (.windowinfo 5 1 0) awake) = some (.reply 5 11 (.windowinfo .unknownRide none)) ∧
    ops (after (.lookup 5 5) (sold .issued)) =
      some (.reply 5 15 (.lookup .done (some (5, pass .issued)) (some (615, 630, 645)))) ∧
    ops (after (.listpasses 5 1 (some 1) 0) (sold .issued)) =
      some (.reply 5 16 (.listpasses .done (some [(5, pass .issued)]) none)) ∧
    ops (after (.accountinfo 5 0) awake) = some (.reply 5 17 (.accountinfo .malformed none)) ∧
    ops (after (.boardinfo 5 1) awake) = some (.reply 5 21 (.boardOne .unknownBoard none)) ∧
    ops (after (.noteinfo 5 11) awake) = some (.reply 5 24 (.noteOne .malformed 11 none [])) := by decide +kernel

theorem test_status : (ops (after (.status 5) (sold .issued))).map Record.bytes =
    some (Record.bytes (.reply 5 25 (.status .done (sold .issued).statusView))) := by decide +kernel

/-- Each query has its witness: it is offered in any state that offers anything. -/
theorem test_witness_QueriesChangeNothing :
    IsQuery (.status 5) 5 .status (fun s => .status .done s.statusView) ∧ Offered 5 .status opening ∧
    Offered 5 (.boardinfo 0) (park .opened) :=
  ⟨.status 5, offered rfl rfl, offered rfl rfl⟩

theorem test_witness_GateAnswers :
    (∀ rq, Offered 5 rq opening) ∧ opening.time.day = .opening ∧ gateCode (.openday 0 0) = some .badState ∧
    gateCode (.void 1) = some .busy :=
  ⟨fun _ => offered rfl rfl, by decide⟩

/-- A request that is answered at the gate, by its command, and one that passes. -/
theorem test_witness_GateRows :
    GateRow opening (.void 1) (.void .busy 1 {}) ∧ GatedRow (.void 5 1) 5 (.void 1) ∧ GatePasses .status ∧
    GatedRow (.setrideDown 5 1 0 0) 5 (.setride 1 3 0 0) :=
  ⟨.void 1, .void 5 1, .status, .setride .down 5 1 0 0⟩

theorem test_gate :
    ops (after (.void 5 1) opening) = some (.reply 5 14 (.void .busy 1 {})) ∧
    ops (after (.openday 5 0 0) opening) = some (.reply 5 2 (.openday .badState none)) ∧
    ops (after (.closeday 5) opening) = some (.reply 5 3 (.closeday .busy)) := by decide +kernel

/-! ### Boards -/

theorem test_witness_ConfboardSets :
    (∀ rq, Offered 5 rq boarded) ∧ boarded.time.day ≠ .opening ∧ boarded.units.find 1 = some (unit .opened) ∧
    boarded.boards.table.find 64 = none ∧ (boarded.boards.table.find 2).isSome = true ∧
    (boarded.boards.table.find 3).isSome = true :=
  ⟨fun _ => offered rfl rfl, by decide⟩

theorem test_confboard :
    (after (.confboard 5 64 (some 0) (some 1)) boarded).boards.table.find 64 = some (Board.fresh (.ride 1)) ∧
    (after (.confboard 5 2 (some 1) none) boarded).boards.table.find 2 =
      some (Board.fresh (.hub Pane.fresh Pane.fresh)) := by decide +kernel

theorem test_confboard_remove : (after (.confboardRemove 5 2) boarded).boards.table.find 2 = none := by decide +kernel

/-- Board 2, removed and made again while its lines are being sent, is passed over (R141). -/
theorem test_board_passed_over :
    (let s := { boarded with boards := { boarded.boards with pass := some (2, 1) } }
     (after .lineFrameSent s).boards.line = .outstanding 2 2 ∧
     (after .lineFrameSent (after (.confboard 5 2 (some 0) (some 1)) (after (.confboardRemove 5 2) s))).boards.line =
       .outstanding 3 1) := by decide +kernel

theorem test_witness_ConfboardRemoves :
    Offered 5 (.confboard 2 true none none false) boarded ∧ boarded.time.day ≠ .opening ∧
    boarded.boards.table.find 2 = some (Board.fresh (.ride 1)) := ⟨offered rfl rfl, by decide⟩

theorem test_witness_ConfpaneReplaces :
    Offered 5 (.confpane 3 2 [1] 9 0 true 1 false) boarded ∧ distinct [1] = true ∧
    (boarded.boards.table.find 3).map (·.kind) = some (.hub Pane.fresh Pane.fresh) ∧
    (∀ r ∈ [1], boarded.units.find r ≠ none) :=
  ⟨offered rfl rfl, by decide⟩

theorem test_confpane :
    ((after (.confpane 5 3 2 [1] 9 0 true 1) boarded).boards.table.find 3).map (·.kind) = some (.hub Pane.fresh
      { list := [1], rows := 8, pagePasses := 1, skipClosed := true, fit := .shortFirst, page := 0, pageCount := 0 }) := by
  decide +kernel

theorem test_witness_BoardtextTakes :
    boarded.boards.table.find 2 = some (Board.fresh (.ride 1)) ∧ (Board.fresh (.ride 1)).lines[3 - 1]? = some Line.fresh ∧
    3 ≤ (Board.fresh (.ride 1)).kind.lineCount ∧ Offered 5 (.boardtext 2 3 0 [0x20#8] 1441 true false) boarded ∧
    printable [0x20#8] = true ∧ Offered 5 (.boardtext 2 3 1 [] 0 false false) boarded :=
  ⟨by decide, by decide, by decide, offered rfl rfl, by decide, offered rfl rfl⟩

theorem test_boardtext :
    ((after (.boardtextSet 5 2 3 [0x41#8] 1441 true) boarded).boards.table.find 2).bind (·.lines[2]?) = some
      { override := some { text := 0x41#8 :: List.replicate 19 0x20#8, left := .minutes 1440 }, blink := 6, shown := none,
        lastText := none } ∧
    after (.boardtextRelease 5 2 3) boarded = enterReply (.reply 5 20 (.boardtext .done 2 3 none)) boarded := by
  decide +kernel

/-- Board 2 with an override on its first line. -/
def lettered (left : Nat) : State :=
  { boarded with boards := { boarded.boards with table := [(2,
      { Board.fresh (.ride 1) with
        lines := [{ Line.fresh with override := some { text := List.replicate 20 0x20#8, left := .minutes left }, blink := 2 },
          Line.fresh, Line.fresh] })] } }

theorem test_override_expiry :
    ((after (.overrideExpiry 2 1) (lettered 0)).boards.table.find 2).map (·.lines.map (·.override)) =
      some [none, none, none] ∧
    after (.overrideExpiry 2 1) (lettered 1) = lettered 1 := by decide +kernel

/-- The minute tick counts the line that is overridden, and ends an override at its last minute. -/
theorem test_override_count :
    (take (tick .gridEnd) (lettered 2) .overrides) = lettered 1 ∧
    ((take (tick .gridEnd) (lettered 1) .overrides).boards.table.find 2).map (·.lines.map (·.override)) =
      some [none, none, none] := by decide +kernel

/-- A board line in its range, with an override and without; a board and a line that are not there. -/
theorem test_witness_OverridesExpire :
    (∀ n, ((lettered n).boards.table.find 2).bind (·.lines[1 - 1]?) =
      some { Line.fresh with override := some { text := List.replicate 20 0x20#8, left := .minutes n }, blink := 2 }) ∧
    ((lettered 0).boards.table.find 2).bind (·.lines[3 - 1]?) = some Line.fresh ∧
    (∀ x ∈ (lettered 0).boards.table, x.1 = 2 → x.2.lines.length < 4) ∧
    (∀ x ∈ (lettered 0).boards.table, x.1 = 3 → x.2.lines.length < 1) :=
  ⟨fun _ => rfl, by decide⟩

/-- The interval over between passes, over within a pass, and a pass due. -/
theorem test_witness_PassStarts :
    (∃ s : State, s.boards.startOwed = false ∧ s.boards.pass = none ∧ s.time.params.passInterval ≤ s.boards.timer) ∧
    (∃ s : State, s.boards.startOwed = false ∧ s.boards.pass = none ∧ s.boards.due = true) ∧
    ∃ s : State, s.boards.startOwed = false ∧ s.time.params.passInterval ≤ s.boards.timer ∧ s.boards.pass = some (0, 0) :=
  ⟨⟨{ awake with boards := { awake.boards with timer := 2 } }, by decide⟩,
   ⟨{ awake with boards := { awake.boards with due := true } }, by decide⟩,
   ⟨{ boarded with boards := { boarded.boards with timer := 2 } }, by decide⟩⟩

theorem test_pass_start :
    (after .passIntervalExpiry { boarded with boards := { boarded.boards with timer := 2 } }).boards.due = true ∧
    (after .passStart { boarded with boards := { boarded.boards with timer := 2, pass := none } }).boards.pass =
      some (0, 0) := by decide +kernel

/-- A pane on the second of two pages whose rides are all shown, and the same pane with CLOSED rides left out. -/
theorem test_paging :
    (let p : Pane := { Pane.fresh with list := [1, 2, 3], rows := 2, pagePasses := 4, page := 1, pageCount := 4 }
     let units : Table RideUnit := [(1, unit .opened), (2, unit .closed), (3, unit .closed)]
     ((p.advance units).page, (p.advance units).pageCount) = (0, 1) ∧
     (({ p with pageCount := 3 } : Pane).advance units).page = 1 ∧
     (({ p with pageCount := 3, skipClosed := true } : Pane).advance units).page = 0) := by decide +kernel

theorem test_witness_LineFrameSent :
    (lettered 5).boards.line = .idle ∧ (lettered 5).boards.pass = some (0, 0) ∧
    nextLine (lettered 5).boards.table 0 0 = some (2, 1) ∧ ((lettered 5).boards.table.find 2).isSome = true := by decide

theorem test_line_frame :
    (after .lineFrameSent (lettered 5)).boards.line = .outstanding 2 1 ∧
    (after .lineFrameSent (lettered 5)).boards.sent.take 4 = [0x96#8, 2#8, 1#8, 2#8] ∧
    (after .lineFrameSent (lettered 5)).boards.sent.length = 26 := by decide +kernel

/-- HUB board 3 with ride 1 on the first of its two panes' rows. -/
def hubbed : Board := Board.fresh (.hub { Pane.fresh with list := [1] } Pane.fresh)

/-- Every case of a composition: an override, a line outside DAY, the three lines of a RIDE board, a HUB row that shows a
ride, one past the end of its list, and one past both panes. -/
theorem test_composition :
    (let b := Board.fresh (.ride 1)
     (composeLine b 1 { Line.fresh with override := some { text := [0x41#8], left := .untilReleased } } boarded) =
       ⟨[0x41#8], none⟩ ∧
     composeLine b 2 Line.fresh opening = ⟨Params.default.text2, none⟩ ∧
     composeLine b 1 Line.fresh boarded = ⟨txt ['A'], some 1⟩ ∧
     composeLine b 2 Line.fresh boarded = ⟨txt ['W', 'A', 'I', 'T', ' ', '1', '0', ' ', 'M', 'I', 'N'], some 1⟩ ∧
     composeLine b 3 Line.fresh boarded =
       ⟨txt ['R', 'E', 'T', 'U', 'R', 'N', ' ', 'F', 'R', 'O', 'M', ' ', '1', '0', ':', '3', '0'], some 1⟩ ∧
     composeLine hubbed 1 Line.fresh boarded =
       ⟨txt ('A' :: List.replicate 17 ' ' ++ ['1', '0']), some 1⟩ ∧
     composeLine hubbed 2 Line.fresh boarded = ⟨[], none⟩ ∧
     composeLine (Board.fresh (.hub { Pane.fresh with rows := 1 } { Pane.fresh with rows := 1 })) 3 Line.fresh boarded =
       ⟨[], none⟩) := by decide +kernel

/-- With no window left to choose, line 3 reads full; for a ride that takes no guests it is blank. -/
theorem test_composition_return :
    (composeLine (Board.fresh (.ride 1)) 3 Line.fresh (parkAt 39540 0 .opened)).text =
      txt ['R', 'E', 'T', 'U', 'R', 'N', ' ', 'F', 'U', 'L', 'L'] ∧
    composeLine (Board.fresh (.ride 1)) 3 Line.fresh (park .closing) = ⟨[], some 1⟩ := by decide +kernel

/-- A line frame to board 2 outstanding, with two misses counted. -/
def awaited : State :=
  { boarded with boards := { boarded.boards with
      line := .outstanding 2 3, pass := some (2, 3)
      table := [(2, { Board.fresh (.ride 1) with misses := 2 })] } }

/-- A frame outstanding; the line reserved, with a pass owed and with none. -/
theorem test_witness_LineFrameEnds :
    (awaited.boards.line = .outstanding 2 3 ∧ (awaited.boards.table.find 2).isSome = true) ∧
    (∃ s : State, s.boards.line = .reserved ∧ s.boards.startOwed = true) ∧
    (∃ s : State, s.boards.line = .reserved ∧ s.boards.startOwed = false ∧ s.boards.pass = some (2, 1) ∧
      nextLine s.boards.table 2 1 = some (2, 2)) ∧
    ∃ s : State, s.boards.line = .reserved ∧ s.boards.startOwed = false ∧ s.boards.pass = some (2, 3) ∧
      nextLine s.boards.table 2 3 = none ∧ s.boards.due = false :=
  ⟨by decide,
   ⟨{ awaited with boards := { awaited.boards with line := .reserved, pass := none, startOwed := true } }, by decide⟩,
   ⟨{ awaited with boards := { awaited.boards with line := .reserved, pass := some (2, 1) } }, by decide⟩,
   ⟨{ awaited with boards := { awaited.boards with line := .reserved } }, by decide⟩⟩

/-- The frame of the last line of the last board outstanding, the next pass due or not. -/
def ending (due : Bool) : State := { awaited with boards := { awaited.boards with due := due, timer := 7 } }

/-- A pass at its end, with and without the due flag, its line outstanding or reserved; lines with a next line on their
board, on a board above, and with none. -/
theorem test_witness_NextChoice :
    (∀ b, (ending b).boards.line = .outstanding 2 3 ∧ (ending b).boards.pass = some (2, 3) ∧
      nextLine (ending b).boards.table 2 3 = none ∧ (ending b).boards.due = b) ∧
    (let s := { ending true with boards := { (ending true).boards with line := .reserved } }
     s.boards.startOwed = false ∧ s.boards.pass = some (2, 3) ∧ nextLine s.boards.table 2 3 = none ∧ s.boards.due = true) ∧
    (boarded.boards.table.wf ∧ (boarded.boards.table.find 2).map (·.kind.lineCount) = some 3 ∧
      nextLine boarded.boards.table 2 2 = some (2, 3) ∧ nextLine boarded.boards.table 2 3 = some (3, 1) ∧
      (∀ y ∈ boarded.boards.table.keys, y ≤ 3) ∧ 3 ∈ boarded.boards.table.keys ∧ boarded.boards.table.find 9 = none ∧
      nextLine boarded.boards.table 3 16 = none) := by decide +kernel

/-- The pass ends, and a pass that is due starts with its timer from 0. -/
theorem test_pass_ends :
    ∀ b, ∀ c ∈ [Instr.boardStatus 0#8, .boardMiss],
      (let t := after c (ending b)
       (t.boards.pass, t.boards.due, t.boards.timer, t.boards.line) =
         (if b then some (0, 0) else none, false, if b then 0 else 7, .idle)) := by decide +kernel

theorem test_board_frame_ends :
    ((after (.boardStatus 4#8) awaited).boards.table.find 2).map (fun b => (b.presence, b.misses, b.level)) =
      some (.present, 0, true) ∧
    ((after .boardMiss awaited).boards.table.find 2).map (fun b => (b.presence, b.misses, b.level)) =
      some (.silent, 3, true) ∧
    (after .boardMiss awaited).boards.pass = none := by decide +kernel

theorem test_abandoned_window :
    (after .abandonedFrameWindowClose
      { awaited with boards := { awaited.boards with line := .reserved, pass := none, startOwed := true } }).boards.pass =
      some (0, 0) := by decide +kernel

/-! ### Notices -/

theorem test_witness_ConfnoteApplies :
    (∀ rq, Offered 5 rq (park .opened)) ∧ (park .opened).time.day ≠ .opening ∧
    noteEntrySound ⟨255, 255, 0, 2⟩ = true ∧ noteEntrySound ⟨3, 48, 2, 1⟩ = true ∧ noteEntrySound ⟨10, 0, 1, 2⟩ = true ∧
    noteTarget 8 64 = true :=
  ⟨fun _ => offered rfl rfl, by decide⟩

/-- The slot of a report on ride 1, with its mask and image; it is not pending. -/
def told (cls : NoteClass) (mask image : Bool) : State :=
  (park .opened).setSlot ⟨cls, 1⟩ { pending := none, mask, sent := false, image }

/-- Lists of two entries that are sound and lists that are refused: an entry of no class, and 65 entries. -/
theorem test_witness_ConfnoteLists :
    (([⟨3, 4, 1, 1⟩, ⟨255, 255, 0, 2⟩] : List NoteEntry).length ≤ 64 ∧
      ∀ e ∈ ([⟨3, 4, 1, 1⟩, ⟨255, 255, 0, 2⟩] : List NoteEntry), noteEntrySound e = true) ∧
    noteEntrySound ⟨11, 0, 0, 2⟩ = false ∧ noteEntrySound ⟨4, 1, 0, 1⟩ = false ∧
    64 < (List.replicate 65 (⟨3, 4, 1, 1⟩ : NoteEntry)).length ∧
    NamesSlots 3 48 ∧ Covers 3 255 ⟨.link, 48⟩ ∧ ¬Covers 3 47 ⟨.link, 48⟩ ∧
    (coveredSlots 3 255).length = 48 := by
  refine ⟨by decide, by decide, by decide, by decide, .inr ⟨.link, rfl, .inr (by decide)⟩, ?_, ?_, by decide⟩
  all_goals unfold Covers; decide

/-- The queue of records to the host is full. -/
def crowded (s : State) : State := { s with port := { s.port with output := List.replicate 32 (.reply 0 1 .bare) } }

/-- A report of a masked slot, of one that must wait, of one that is sent, and of one that is pending; the level that equals
the image; a fall under either edge setting. -/
theorem test_witness_reports :
    (∀ m i, ((told .link m i).slot ⟨.link, 1⟩) = { pending := none, mask := m, sent := false, image := i }) ∧
    (reportEvent .gap 1 3 (told .gap true false)).slot ⟨.gap, 1⟩ =
      { pending := some { clock := 36000, level := false, detail := 3 }, mask := true, sent := false, image := false } ∧
    (reportEvent .gap 1 3 (crowded (told .gap false false))).notices.sendList = [⟨.gap, 1⟩] ∧
    (reportEvent .gap 1 3 (told .gap false false)).port.output =
      [.notice ⟨.gap, 1⟩ { clock := 36000, level := false, detail := 3 }] ∧
    (let s := reportEvent .gap 1 3 (told .gap true false)
     reportEvent .gap 1 4 s = s) ∧
    (reportLevel .link 1 true 3 (told .link true false)).slot ⟨.link, 1⟩ =
      { pending := some { clock := 36000, level := true, detail := 3 }, mask := true, sent := false, image := true } ∧
    reportLevel .link 1 true 3 (told .link true true) = told .link true true ∧
    (reportLevel .link 1 false 3 (told .link true true)).slot ⟨.link, 1⟩ =
      { pending := none, mask := true, sent := false, image := false } ∧
    (let s := { told .link true true with
        notices := { (told .link true true).notices with edges := { (told .link true true).notices.edges with link := .both } } }
     ((reportLevel .link 1 false 3 s).slot ⟨.link, 1⟩).pending = some { clock := 36000, level := false, detail := 3 }) := by
  decide +kernel

theorem test_confnote :
    ((after (.confnote 5 [⟨3, 4, 1, 1⟩]) awake).slot ⟨.link, 4⟩).mask = false ∧
    ((after (.confnote 5 [⟨3, 4, 1, 1⟩]) awake).slot ⟨.link, 5⟩).mask = true ∧
    (after (.confnote 5 [⟨3, 4, 1, 1⟩]) awake).notices.edges.link = .both := by decide +kernel

/-- A slot with a record pending under its mask, and another already on the send list. -/
def veiled : State :=
  let s := (park .opened).setSlot ⟨.gap, 1⟩
    { pending := some { clock := 9, level := false, detail := 2 }, mask := true, sent := false, image := false }
  let t := s.setSlot ⟨.gap, 2⟩
    { pending := some { clock := 8, level := false, detail := 2 }, mask := false, sent := false, image := false }
  { t with notices := { t.notices with sendList := [⟨.gap, 2⟩] } }

/-- A Mask CLEAR that uncovers an unsent record: it joins the end of the send list, and is sent where a place is free. -/
theorem test_mask_uncovers :
    (maskAction 1 (crowded veiled) ⟨.gap, 1⟩).notices.sendList = [⟨.gap, 2⟩, ⟨.gap, 1⟩] ∧
    (let s := { veiled with notices := { veiled.notices with sendList := [] } }
     (maskAction 1 s ⟨.gap, 1⟩).port.output = [.notice ⟨.gap, 1⟩ { clock := 9, level := false, detail := 2 }] ∧
       ((maskAction 1 s ⟨.gap, 1⟩).slot ⟨.gap, 1⟩).sent = true) ∧
    (maskAction 0 (crowded veiled) ⟨.gap, 2⟩).notices.sendList = [] ∧
    (maskAction 1 (crowded veiled) ⟨.gap, 2⟩).notices.sendList = [⟨.gap, 2⟩] := by decide +kernel

/-- Two entries are applied in order: the second leaves the last word. -/
theorem test_confnote_list :
    ((after (.confnote 5 [⟨3, 255, 1, 2⟩, ⟨3, 4, 0, 2⟩]) awake).slot ⟨.link, 4⟩).mask = true ∧
    ((after (.confnote 5 [⟨3, 255, 1, 2⟩, ⟨3, 4, 0, 2⟩]) awake).slot ⟨.link, 5⟩).mask = false ∧
    ops (after (.confnote 5 [⟨3, 255, 1, 2⟩, ⟨3, 49, 0, 2⟩]) awake) = some (.reply 5 22 (.confnote .malformed 0 0)) := by
  decide +kernel

theorem test_witness_ClearnoteClears :
    Offered 5 (.clearnote [⟨10, 0⟩]) (park .opened) ∧ noteTarget 10 0 = true ∧ noteTarget 255 255 = true ∧
    noteTarget 0 48 = true :=
  ⟨offered rfl rfl, by decide⟩

/-- The slots that two entries cover, once each; a list that is refused. -/
theorem test_witness_ClearnoteLists :
    (∀ id : SlotId, id ∈ [⟨.gap, 1⟩, ⟨.overrun, 0⟩] ↔ ∃ e ∈ ([⟨4, 1⟩, ⟨10, 0⟩] : List ClearEntry), Covers e.cls e.src id) ∧
    ([⟨.gap, 1⟩, ⟨.overrun, 0⟩] : List SlotId).Nodup ∧
    (∀ e ∈ ([⟨4, 1⟩, ⟨10, 0⟩] : List ClearEntry), noteTarget e.cls e.src = true) ∧ noteTarget 11 0 = false := by
  refine ⟨fun ⟨c, n⟩ => ?_, by decide, by decide, by decide⟩
  cases c <;> simp [Covers, NoteClass.number, eq_comm]

theorem test_clearnote :
    (let s := (park .opened).setSlot ⟨.gap, 1⟩
        { pending := some { clock := 0, level := false, detail := 1 }, mask := true, sent := false, image := false }
     ops (after (.clearnote 5 [⟨4, 1⟩]) s) = some (.reply 5 23 (.clearnote .done 1)) ∧
       ((after (.clearnote 5 [⟨4, 1⟩]) s).slot ⟨.gap, 1⟩).pending = none) := by decide +kernel

/-- Of the send list the slots cleared leave, and the others keep their order. -/
theorem test_clearnote_order :
    (let s := { crowded veiled with notices := { veiled.notices with sendList := [⟨.jump, 3⟩, ⟨.gap, 2⟩, ⟨.link, 1⟩] } }
     (after (.clearnote 5 [⟨4, 1⟩, ⟨4, 255⟩]) s).notices.sendList = [⟨.jump, 3⟩, ⟨.link, 1⟩] ∧
       (after (.clearnote 5 [⟨4, 1⟩, ⟨4, 255⟩]) s).port.waiting = [.reply 5 23 (.clearnote .done 2)]) := by decide +kernel

/-! ### The operations line -/

/-- A STATUS request with TAG 7, received whole. -/
theorem test_frame_received :
    (after (.frameReceived (opsFrame 7 25 [])) awake).port.input = [{ tag := 7, cls := 25, params := [] }] := by
  decide +kernel

theorem test_witness_FrameRoundTrip :
    awake.port.receiver = .hunt ∧ awake.port.input.length < 8 ∧
    ∃ s : State, s.port.receiver = .hunt ∧ 8 ≤ s.port.input.length :=
  ⟨rfl, by decide, { awake with port := { awake.port with input := List.replicate 8 ⟨0, 25, []⟩ } }, rfl, by decide⟩

/-- A LENGTH of 1 and of 1,001; a frame in each state of the receiver but HUNT; a check that is wrong. -/
theorem test_witness_ReceiverDiscards :
    (∃ s : State, s.port.receiver = .header []) ∧ (0#8).toNat * 256 + (1#8).toNat < 2 ∧
    1000 < (3#8).toNat * 256 + (0xE9#8).toNat ∧ (∃ s : State, s.port.receiver ≠ .hunt) ∧
    (∃ s : State, s.port.receiver = .check 2 [7#8, 25#8] []) ∧ crcBytes (putNum 2 2 ++ [7#8, 25#8]) ≠ [0#8, 0#8] :=
  ⟨⟨{ awake with port := { awake.port with receiver := .header [] } }, rfl⟩, by decide, by decide,
   ⟨{ awake with port := { awake.port with receiver := .body 2 [] } }, by decide⟩,
   ⟨{ awake with port := { awake.port with receiver := .check 2 [7#8, 25#8] [] } }, rfl⟩, by decide +kernel⟩

theorem test_receiver :
    (after .frameBegins awake).port.receiver = .header [] ∧
    (after (.lengthError 3#8 0xE9#8) { awake with port := { awake.port with receiver := .header [] } }).port.crcErrors = 1 ∧
    (after .receiveTimeout { awake with port := { awake.port with receiver := .body 9 [] } }).port.timeouts = 1 := by
  decide +kernel

/-- With the frame at the head of the queue, and with none queued. -/
theorem test_witness_UnknownClassAnswered :
    awake.mayTake = true ∧ awake.port.input = [] ∧
    ∃ s : State, s.mayTake = true ∧ ∃ f fs, s.port.input = f :: fs ∧ f.tag = 5 ∧ f.cls = 27 :=
  ⟨rfl, rfl, { awake with port := { awake.port with input := [⟨5, 27, []⟩] } }, rfl, _, _, rfl, rfl, rfl⟩

theorem test_unknown_class : ops (after (.unknownClass 5 27) awake) = some (.reply 5 0 .bare) ∧
    (Record.reply 5 0 .bare).bytes.take 6 = [0x5A#8, 0#8, 3#8, 5#8, 0x80#8, 4#8] := by decide +kernel

/-- A full queue with both parties waiting, either of them next. -/
theorem test_witness_RecordSent :
    ∀ b, ∃ s : State, s.restartDue = none ∧ s.port.output.length = 32 ∧ s.port.waiting.length = 1 ∧
      s.notices.sendList.length = 1 ∧ s.port.noticesLast = b :=
  fun b => ⟨{ contested b with port := { (contested b).port with output := List.replicate 32 (.reply 0 1 .bare) } },
    by cases b <;> decide +kernel⟩

theorem test_record_sent :
    (after .outputRecordSend { contested true with
      port := { (contested true).port with output := [.reply 0 1 .bare] } }).port.output = [.reply 1 1 .bare] ∧
    (after .outputRecordSend { contested true with
      port := { (contested true).port with output := [.reply 0 1 .bare] } }).port.sending = some (.reply 0 1 .bare) := by
  decide +kernel

/-- A place uncontested by either party, and contested with either marker. -/
theorem test_witness_PlacesAreArbitrated :
    (contested true).port.output.length < 32 ∧ (contested true).port.waiting = [.reply 1 1 .bare] ∧
    (contested false).notices.sendList = [⟨.state, 1⟩] ∧ (contested false).port.noticesLast = false ∧
    ((contested false).slot ⟨.state, 1⟩).pending = some { clock := 1, level := false, detail := 3 } := by decide +kernel

theorem test_grants :
    (after .replyGranted (contested true)).port.noticesLast = false ∧
    (after .replyGranted (contested true)).port.waiting = [] ∧
    (after .noticeGranted (contested false)).port.noticesLast = true ∧
    (after .noticeGranted (contested false)).notices.sendList = [] := by decide +kernel

/-! ### Restarts -/

theorem test_witness_RestartAnswered : Offered 5 (.restart 0) opening ∧ Offered 5 (.restart 1) opening :=
  ⟨offered rfl rfl, offered rfl rfl⟩

theorem test_restart :
    (after (.restartWarm 5) opening).port.restartPending = some .warm ∧
    (after (.restartCold 5) opening).port.restartPending = some .cold := by decide +kernel

/-- A restart pending, its reply the record last sent. -/
def restarting (k : RestartKind) : State :=
  { awaited with port := { awaited.port with
      restartPending := some k, sending := some (.reply 5 26 (.restart .done 0 0 .unset .idle)) } }

theorem test_witness_RestartTakesEffect :
    (restarting .warm).port.sending = some (.reply 5 26 (.restart .done 0 0 .unset .idle)) ∧
    (restarting .warm).notices.slots.wf ∧ (restarting .warm).port.restartPending = some .warm ∧
    (restarting .warm).restartDue ≠ none ∧ (restarting .cold).port.restartPending = some .cold := by decide

theorem test_restart_takes_effect :
    (after .restartTakesEffect (restarting .cold)).units = [] ∧
    (after .restartTakesEffect (restarting .warm)).boards.line = .reserved ∧
    (after .restartTakesEffect (restarting .warm)).boards.startOwed = true ∧
    (∀ l ∈ [FieldLine.idle, .reserved], (after .restartTakesEffect
      { restarting .warm with poller := { (restarting .warm).poller with line := l } }).poller.line = l) ∧
    (after .restartTakesEffect (restarting .warm)).time.day = .day := by decide +kernel

/-- With no frame outstanding, a pass starts at once and the panes are advanced from page 0. -/
theorem test_restart_warm_pass :
    (let s := { restarting .warm with boards := { (restarting .warm).boards with
        line := .idle, table := [(3, { hubbed with kind := .hub { Pane.fresh with list := [1], page := 5, pageCount := 3 } Pane.fresh })] } }
     (after .restartTakesEffect s).boards.pass = some (0, 0) ∧ (after .restartTakesEffect s).boards.startOwed = false ∧
       ((after .restartTakesEffect s).boards.table.find 3).map (·.kind) =
         some (.hub { Pane.fresh with list := [1], pageCount := 1 } { Pane.fresh with pageCount := 1 })) := by decide +kernel

/-! ### Thresholds of a ride -/

/-- The day with the ride's record changed. -/
def tuned (st : RideState) (f : RideUnit → RideUnit) : State := (park st).modUnit 1 f

/-- Each threshold reached. -/
theorem test_witness_RideThresholds :
    (∃ u, (tuned .opened fun u => { u with stall := 180 }).units.find 1 = some u ∧ u.state = .opened ∧
      u.config.stallTime ≤ u.stall) ∧
    (∃ u e, ((park (.held .stall)).modEst 1 fun e => { e with heldMin := 15 }).units.find 1 = some u ∧
      ((park (.held .stall)).modEst 1 fun e => { e with heldMin := 15 }).ests.find 1 = some e ∧
      u.config.auto = true ∧ u.config.downAfter ≤ e.heldMin) ∧
    (∃ u, (tuned .opened fun u => { u with fault := 10 }).units.find 1 = some u ∧ u.codeLevel = false ∧
      u.config.codePersist ≤ u.fault) ∧
    ∃ u, (tuned (.down .code) fun u => { u with codeLevel := true, clear := 60 }).units.find 1 = some u ∧
      u.codeLevel = true ∧ u.config.clearPersist ≤ u.clear :=
  ⟨⟨_, rfl, by decide⟩, ⟨_, _, rfl, rfl, by decide⟩, ⟨_, rfl, by decide⟩, ⟨_, rfl, by decide⟩⟩

theorem test_stall_and_held :
    (after (.stallTimerExpiry 1) (tuned .opened fun u => { u with stall := 180 })).units.map (·.2.state) =
      [.held .stall] ∧
    (after (.heldTooLong 1) ((park (.held .stall)).modEst 1 fun e => { e with heldMin := 15 })).units.map (·.2.state) =
      [.down .heldTooLong] := by decide +kernel

theorem test_code_level :
    (after (.codeRise 1) (tuned .opened fun u => { u with fault := 10 })).units.map (·.2.state) = [.down .code] ∧
    (after (.codeFall 1) (tuned (.down .code) fun u => { u with codeLevel := true, clear := 60 })).units.map
      (·.2.state) = [.testing .fromDown] := by decide +kernel

/-- Ride 1 at a second tick: its latest code, its link and its timers. -/
def secondAt (st : RideState) (code : Nat) (link : Link) (f : RideUnit → RideUnit) : State :=
  (tuned st f).modField 1 fun g => { g with lastCode := some code, link := link }

/-- A ride whose link is UP, and one whose link is not. -/
theorem test_witness_SecondTick :
    ((secondAt .opened 0 .up id).poller.records.find 1).map (·.link) = some .up ∧
    ((secondAt .opened 0 .lost id).poller.records.find 1).map (·.link) = some .lost ∧
    (secondAt .opened 0 .up id).units.find 1 = some (unit .opened) ∧ (secondAt .opened 0 .up id).ests.find 1 = some est := by
  decide

/-- The second that brings a timer to its threshold acts, the code before the stall; with the link LOST nothing counts. -/
theorem test_second_of_a_ride :
    (take (tick .gridEnd) (secondAt .opened 0 .up fun u => { u with stall := 179 }) (.second 1)).units.map (·.2.state) =
      [.held .stall] ∧
    (take (tick .gridEnd) (secondAt .opened 128 .up fun u => { u with stall := 179, fault := 9 }) (.second 1)).units.map
      (fun x => (x.2.state, x.2.stall)) = [(.down .code, 179)] ∧
    (take (tick .gridEnd) (secondAt (.down .code) 127 .up fun u => { u with codeLevel := true, clear := 59 }) (.second 1)).units.map
      (fun x => (x.2.state, x.2.clear)) = [(.testing .fromDown, 0)] ∧
    take (tick .gridEnd) (secondAt .opened 128 .lost fun u => { u with stall := 179, fault := 9 }) (.second 1) =
      secondAt .opened 128 .lost fun u => { u with stall := 179, fault := 9 } := by decide +kernel

/-- A ride in a test whose thresholds are 0, nothing counted yet, and no baseline held. -/
def untested : State :=
  (tuned (.testing .fromClosed) fun u => { u with config := { config with testDispatches := 0, testMinutes := 0 } }).modField 1
    fun f => { f with baseValid := false }

/-- A completed test before park close, and one after it; and one with nothing to count. -/
theorem test_witness_TestCompletes :
    (∃ u, untested.units.find 1 = some u ∧ u.state = .testing .fromClosed ∧ u.config.testDispatches = 0 ∧
      u.config.testMinutes = 0 ∧ u.testDispatches = 0 ∧ u.testMinutes = 0) ∧
    (∃ u, (tuned (.testing .fromDown) fun u => { u with testDispatches := 3, testMinutes := 5 }).units.find 1 = some u ∧
      u.state = .testing .fromDown ∧ u.config.testDispatches ≤ u.testDispatches ∧
      u.config.testMinutes ≤ u.testMinutes ∧ (0 < u.testDispatches ∨ 0 < u.testMinutes)) ∧
    (park .opened).time.closePassed = false ∧ (setClosePassed (park .opened)).time.closePassed = true :=
  ⟨⟨_, rfl, by decide⟩, ⟨_, rfl, by decide⟩, rfl, rfl⟩

theorem test_test_complete :
    (after (.testComplete 1) (tuned (.testing .fromDown) fun u => { u with testDispatches := 3, testMinutes := 5 })).units.map
      (·.2.state) = [.opened] ∧
    (after (.testComplete 1) (setClosePassed
      (tuned (.testing .fromDown) fun u => { u with testDispatches := 3, testMinutes := 5 }))).units.map (·.2.state) =
      [.closing] := by decide +kernel

/-- The minute tick and a report each count before the check; another ride's test counts stand. -/
theorem test_test_counts :
    (take (tick .gridEnd) (tuned (.testing .fromDown) fun u => { u with testDispatches := 3, testMinutes := 4 })
      (.testMinute 1)).units.map (fun x => (x.2.state, x.2.testMinutes)) = [(.opened, 5)] ∧
    (take (tick .gridEnd) (tuned (.testing .fromDown) fun u => { u with testMinutes := 255 }) (.testMinute 1)).units.map
      (fun x => (x.2.state, x.2.testMinutes)) = [(.testing .fromDown, 255)] ∧
    take (tick .gridEnd) (park .opened) (.testMinute 1) = park .opened ∧
    (unitReport 1 0 (some 1) (tuned (.testing .fromDown) fun u => { u with testDispatches := 2, testMinutes := 5 })).units.map
      (·.2.state) = [.opened] := by decide +kernel

/-- A stale ride that is resumed has its WR and WT computed and nothing published (R60, R76). -/
theorem test_stale_resume :
    ((after (.setrideResume 5 1 0 0) ((park (.held .operations)).modEst 1 fun e =>
      { e with stale := true, wait := none })).ests.find 1).map (fun e => (e.wr, e.wt, e.wait)) =
      some (rawWait 40 (initialS 1200 4), rawWait 40 (initialS 1200 4), none) := by decide +kernel

/-- A LOST ride at its stale hold. -/
def lost : State :=
  ((park .opened).modField 1 fun f => { f with link := .lost }).modEst 1 fun e => { e with staleTimer := 5 }

theorem test_witness_StaleHoldReached :
    ∃ f e, lost.poller.records.find 1 = some f ∧ lost.ests.find 1 = some e ∧ f.link = .lost ∧ e.stale = false ∧
      lost.time.params.staleHold ≤ e.staleTimer ∧ e.wait ≠ none := ⟨_, _, rfl, rfl, by decide⟩

theorem test_stale_hold : ((after (.staleHoldReached 1) lost).ests.find 1).map (fun e => (e.stale, e.wait)) =
    some (true, none) := by decide +kernel

/-! ### The field link -/

/-- The next ride above the last polled, and the lowest again. -/
theorem test_witness_PollSent :
    (park .opened).poller.line = .idle ∧ (park .opened).poller.records.find 1 = some field ∧ (park .opened).units.wf ∧
    ((park .opened).poller.last < 1 ∧ 1 ∈ (park .opened).units.keys ∧
      ∀ j ∈ (park .opened).units.keys, (park .opened).poller.last < j → 1 ≤ j) ∧
    ∀ j ∈ (park .opened).units.keys, j ≤ 1 ∧ 1 ≤ j := by decide

theorem test_poll_sent : (after .pollSent (park .opened)).poller.line = .outstanding 1 7 [] ∧
    (after .pollSent (park .opened)).poller.sent.take 2 = [0xC3#8, 7#8] := by decide +kernel

/-- A poll of ride 1 outstanding. -/
def polled (st : RideState) : State :=
  { park st with poller := { (park st).poller with line := .outstanding 1 7 [] } }

/-- A report of address 7: code 0, 6 guests entered, 2 boarded standby, 1 boarded on return, 1 dispatch. -/
def reportBytes : List Byte :=
  let b : List Byte := [7#8, 0#8, 0#8, 6#8, 0#8, 2#8, 0#8, 1#8, 0#8, 1#8]
  0xA5#8 :: (b ++ crcBytes b)

theorem test_witness_GoodReplyRecord :
    (polled .opened).poller.line = .outstanding 1 7 [] ∧ 13 ≤ reportBytes.length ∧
    judgeReport 7 (reportBytes.take 13) =
      some { code := 0, counters := { entered := 6, standby := 2, ret := 1, dispatches := 1 } } ∧
    (polled .opened).poller.records.find 1 = some field := by decide +kernel

theorem test_witness_DeltaReportCounts :
    (polled (.held .stall)).units.find 1 = some (unit (.held .stall)) ∧ (polled (.held .stall)).ests.find 1 = some est ∧
    field.baseValid = true ∧ field.link = .up ∧ (unit (.held .stall)).state.isTesting = false ∧
    (unit (.testing .fromDown)).state.isTesting = true ∧ (park (.testing .fromDown)).time.closePassed = false ∧
    field.base.entered < 65536 ∧ field.base.standby < 65536 ∧ field.base.ret < 65536 ∧ field.base.dispatches < 65536 ∧
    (Counters.since { entered := 6, standby := 2, ret := 1, dispatches := 1 } field.base).plausible = true := by decide

/-- A test whose thresholds are 0 does not end at the entry, and ends at the next report, one that gives a baseline alone
(R29). -/
theorem test_untested :
    after (.testComplete 1) { untested with poller := { untested.poller with line := .outstanding 1 7 [] } } =
      { untested with poller := { untested.poller with line := .outstanding 1 7 [] } } ∧
    (after (.goodReply reportBytes) { untested with poller := { untested.poller with line := .outstanding 1 7 [] } }).units.map
      (·.2.state) = [.opened] := by decide +kernel

theorem test_good_reply :
    ((after (.goodReply reportBytes) (polled (.held .stall))).ests.find 1).map (fun e => (e.q, e.m, e.mr)) =
      some (44, 2, 1) ∧
    (after (.goodReply reportBytes) (polled (.held .stall))).units.map (·.2.state) = [.opened] := by decide +kernel

/-- A LOST ride, stale and with no wait, whose test asks for nothing; its baseline is gone. -/
def returning (unitFirst : Bool) : State :=
  let s := ((untested.modField 1 fun f => { f with link := .lost }).modEst 1 fun e => { e with stale := true, wait := none }).setSlot
    ⟨.link, 1⟩ { Slot.reset with image := true }
  { s with poller := { s.poller with line := .outstanding 1 7 [] }, orders := { s.orders with handovers := [unitFirst] } }

theorem test_witness_GoodReplyOrders :
    ∀ b, (returning b).poller.line = .outstanding 1 7 [] ∧
      ((returning b).poller.records.find 1).map (fun f => (f.link, f.baseValid)) = some (.lost, false) ∧
      (returning b).time.closePassed = false ∧ (returning b).units.map (·.2.state) = [.testing .fromClosed] ∧
      ((returning b).ests.find 1).map (fun e => (e.stale, e.wait)) = some (true, none) ∧
      (returning b).takeHandover.1 = b := by decide +kernel

/-- Both orders of R49: the ride opens before the Flow Estimator has the link UP, its wait absent and RENEW set, or after it,
its wait published. -/
theorem test_good_reply_orders :
    ∀ b, (after (.goodReply reportBytes) (returning b)).units.map (·.2.state) = [.opened] ∧
      ((after (.goodReply reportBytes) (returning b)).ests.find 1).map (fun e => (e.stale, e.wait.isSome, e.renew)) =
        some (false, !b, b) ∧
      ((after (.goodReply reportBytes) (returning b)).slot ⟨.link, 1⟩).image = false := by decide +kernel

/-- A reply that is implausible, and one that gives a baseline alone, to a ride that is not TESTING. -/
theorem test_witness_GoodReplyOtherKinds :
    (Counters.since { entered := 601, standby := 0, ret := 0, dispatches := 0 } field.base).plausible = false ∧
    ({ field with baseValid := false } : FieldRecord).baseValid = false ∧ (unit .opened).state.isTesting = false := by decide

/-- A miss that is counted, and one that makes the link LOST. -/
theorem test_witness_PollMissCounts :
    (polled .opened).poller.line = .outstanding 1 7 [] ∧ ([0xA5#8] : List Byte).length < 13 ∧
    (polled .opened).poller.records.find 1 = some field ∧
    ¬((polled .opened).time.params.silencePolls ≤ min 255 (field.misses + 1)) ∧
    (polled .opened).time.params.silencePolls ≤ min 255 (({ field with misses := 4 } : FieldRecord).misses + 1) := by
  decide

/-- Thirteen bytes with a wrong start byte, ADDRESS or check; the link lost with STALE_HOLD 0. -/
theorem test_witness_ReplyJudgedMiss :
    (∀ bs ∈ [0#8 :: reportBytes.tail, reportBytes.set 1 8#8, reportBytes.set 12 0#8],
      13 ≤ bs.length ∧ judgeReport 7 (bs.take 13) = none) ∧
    0 < (polled .opened).time.params.staleHold ∧ est.wait ≠ none ∧ (Estimator.fresh 1200 4).wait = none := by
  decide +kernel

/-- The thirteenth byte of a wrong reply counts a miss; at the last miss the estimator is not eligible and its stale timer is
0, and with STALE_HOLD 0 it is STALE at once. -/
theorem test_judged_miss :
    (∀ c ∈ [Instr.goodReply (reportBytes.set 12 0#8), .pollMiss (reportBytes.set 1 8#8)],
      ((after c (polled .opened)).poller.records.find 1).map (fun f => (f.misses, f.link)) = some (1, .up)) ∧
    (∀ h ∈ [0, 5],
      ((after (.pollMiss []) (State.modEst { (polled .opened).modField 1 (fun f => { f with misses := 4 }) with
        time := { (polled .opened).time with params := { Params.default with staleHold := h } } } 1 fun e =>
          { e with eligible := true, staleTimer := 3 })).ests.find 1).map
        (fun e => (e.eligible, e.staleTimer, e.stale, e.wait.isSome)) = some (false, 0, decide (h = 0), decide (h ≠ 0))) := by decide +kernel

theorem test_poll_miss :
    ((after (.pollMiss []) (polled .opened)).poller.records.find 1).map (fun f => (f.misses, f.link)) = some (1, .up) ∧
    ((after (.pollMiss []) ((polled .opened).modField 1 fun f => { f with misses := 4 })).poller.records.find 1).map
      (fun f => (f.misses, f.link)) = some (5, .lost) := by decide +kernel

/-! ### Invariants and arithmetic -/

/-- A state other than the reset state, with a command waiting, that meets the invariants of its port, its day, its book
and its ranges, and steps. -/
def waiting : State := { awake with pending := [.status 5] }

theorem test_witness_PortInvariantKept : PortInv waiting ∧ ∃ t, step waiting = .next t :=
  ⟨⟨by decide, by decide, by decide, by decide, by decide, by decide, by decide, by decide⟩, _, rfl⟩

theorem test_witness_DayInvariantKept : DayInv { sold .issued with pending := [.closeday 5] } :=
  ⟨by decide, by decide, by decide⟩

theorem test_witness_BookInvariantKept : BookInv { sold .flex with pending := [.void 5 5] } :=
  ⟨by decide, by decide, by decide, by decide +kernel, by decide⟩

theorem test_witness_RangeInvariantKept : RangeInv { lettered 5 with pending := [.setqueue 5 1 0 0 9999] } := by
  refine ⟨by decide, by decide, ?_, by decide, by decide, ?_, ?_, ?_, ?_⟩
  · constructor <;> decide
  all_goals
    intro x hx
    simp only [lettered, boarded, park, ride, List.mem_singleton] at hx
    subst hx
  · constructor <;> decide
  · exact ⟨by constructor <;> decide, by decide, by decide, by decide, by decide, by decide, by decide⟩
  · constructor <;> decide
  · intro l hl
    simp only [List.mem_cons, List.not_mem_nil, or_false] at hl
    rcases hl with rfl | rfl | rfl
    · refine ⟨?_, ?_, by decide⟩
      · rintro o n ho hn
        simp only [Option.some.injEq] at ho
        subst ho
        cases hn
        decide
      · rintro o ho
        simp only [Option.some.injEq] at ho
        subst ho
        decide
    all_goals exact ⟨(by rintro o n ho; cases ho), (by rintro o ho; cases ho), by decide⟩

/-- A published wait and an absent one, a stale ride, a held ride that is not taken DOWN, and every kind of STATE. -/
theorem test_witness_WaitPublished :
    (0 < Params.default.step ∧ Params.default.postMax ≤ 120 ∧ 119 < Params.default.postMax) ∧
    (plain (.estimator 1) = .estimator 1 ∧ plain (.estimatorLate 1) = .estimator 1) ∧
    ((park (.held .stall)).units.find 1 = some (unit (.held .stall)) ∧
      (park (.held .stall)).poller.records.find 1 = some field ∧ (park (.held .stall)).ests.find 1 = some est ∧
      field.link ≠ .lost ∧ (unit (.held .stall)).config.auto = true ∧
      (est.minute Params.default (unit (.held .stall)) true false).heldMin < (unit (.held .stall)).config.downAfter) ∧
    (park .closed).units.find 1 = some (unit .closed) ∧ est.wait ≠ none ∧ (Estimator.fresh 1200 4).wait = none := by decide

/-- A LOST ride in the minute that makes it stale, and a held ride in the minute that takes it DOWN, in either order. -/
theorem test_witness_WaitMinutes :
    (lost.poller.records.find 1).map (·.link) = some .lost ∧ (lost.ests.find 1).map (·.staleTimer) = some 5 ∧
    lost.time.params.staleHold ≤ min 255 (5 + 1) ∧ (unit (.held .stall)).config.auto = true ∧
    (unit (.held .stall)).config.downAfter ≤
      (({ est with heldMin := 14 } : Estimator).minute Params.default (unit (.held .stall)) true false).heldMin := by decide

theorem test_wait_minutes :
    ((take (tick .gridEnd) lost (.estimator 1)).ests.find 1).map (fun e => (e.staleTimer, e.stale, e.wait)) =
      some (6, true, none) ∧
    (∀ k ∈ [Taking.estimator 1, .estimatorLate 1],
      (take (tick .gridEnd) ((park (.held .stall)).modEst 1 fun e => { e with heldMin := 14 }) k).units.map (·.2.state) =
        [.down .heldTooLong]) ∧
    ((take (tick .gridEnd) ((park (.held .stall)).modEst 1 fun e => { e with heldMin := 14 }) (.estimator 1)).ests.find 1).map
      (fun e => (e.heldMin, e.wait, decide (e.wt < 15))) = some (15, none, true) ∧
    ((take (tick .gridEnd) ((park (.held .stall)).modEst 1 fun e => { e with heldMin := 14 }) (.estimatorLate 1)).ests.find 1).map
      (fun e => (e.heldMin, e.wait, decide (e.wt < 15))) = some (15, none, false) := by decide +kernel

theorem test_wait_published :
    ((take (tick .gridEnd) ((park .opened).modEst 1 fun e => { e with q := 9999 }) (.estimator 1)).ests.find 1).map (·.wait) =
      some (some ⟨120, true⟩) ∧
    ((take (tick .gridEnd) ((park .opened).modEst 1 fun e => { e with q := 9999 }) (.estimator 1)).slot ⟨.jump, 1⟩).pending =
      some { clock := 36000, level := false, detail := 120 } := by decide +kernel

theorem test_witness_Smoothing : ({ est with eligible := true } : Estimator).eligible = true ∧ est.eligible = false := by
  decide

end Sys2Proof.Tests
end

section
/-! The raw wait of the Flow Estimator (R71): one equation for each of its three cases. -/

namespace Sys2Proof.Machine

/-- An empty queue needs no time, whatever the rate (R71). -/
@[simp] theorem rawWait_zero_queue (s : Nat) : rawWait 0 s = 0 := rfl

/-- Under one guest a minute the part does not divide: the raw wait is the largest wait (R71). -/
theorem rawWait_of_rate_lt {q s : Nat} (hq : 0 < q) (hs : s < Config.rateLeast) :
    rawWait q s = Config.waitMax := by
  rw [rawWait, if_neg hq.ne', if_pos hs]

/-- From one guest a minute upward the raw wait is the ratio rounded up, bounded by the largest wait (R71). -/
theorem rawWait_of_rate_le {q s : Nat} (hq : 0 < q) (hs : Config.rateLeast ≤ s) :
    rawWait q s = min Config.waitMax ((8 * q + s - 1) / s) := by
  have hguests : 0 < 8 * q := by omega
  rw [rawWait, if_neg hq.ne', if_neg hs.not_gt, saturate_eq_min, ceilDiv_eq _ _ hguests]

/-- Settles O57, by the three cases of R71 (the name `rawWait` itself is the function's). -/
theorem rawWait_cases : Obligations.RawWait := by
  intro q s
  refine ⟨?emptyQueue, ?slowRate, ?ratio⟩
  case emptyQueue =>
    rintro rfl
    exact rawWait_zero_queue s
  case slowRate => exact rawWait_of_rate_lt
  case ratio => exact rawWait_of_rate_le

end Sys2Proof.Machine
end

section
/-! A quote: a RESERVE with QUOTE set, from its row to its reply (R116). -/

namespace Sys2Proof.Machine

/-- The row of a quote is the port's taking of a RESERVE with QUOTE set. -/
theorem exec_reserveQuote (tag r k p g o : Nat) (s : State) :
    exec (.reserveQuote tag r k p g o) s = .next (portStep tag (.reserve r k p g o 1) s) := rfl

/-- The checks of a RESERVE read nothing of the input queue. -/
@[simp] theorem State.popInput_reserveFind (s : State) (o : ReserveOps) :
    s.popInput.reserveFind o = s.reserveFind o := rfl

/-- Check 1 of a request of the day passes in DAY alone (R111). -/
theorem dayRefusal_none_iff (d : DayState) : dayRefusal d = none ↔ d = .day := by
  cases d <;> simp [dayRefusal]

/-- A RESERVE refused by the day state finds no window (R111, check 1). -/
theorem State.reserveFind_of_dayRefusal {s : State} {c : Code} (o : ReserveOps)
    (h : dayRefusal s.time.day = some c) : s.reserveFind o = .error (c, {}) := by
  simp [State.reserveFind, h]

/-- A RESERVE finds a window in DAY only (R111, check 1). -/
theorem State.day_of_reserveFind_ok {s : State} {o : ReserveOps} {f : Found} (h : s.reserveFind o = .ok f) :
    s.time.day = .day := by
  cases hd : dayRefusal s.time.day with
  | none => exact (dayRefusal_none_iff _).mp hd
  | some c =>
    rw [State.reserveFind_of_dayRefusal o hd] at h
    cases h

/-- The owner answers a quote with the window it finds, full table or not: record space is looked at only without QUOTE
(R114, R116). -/
theorem serveReserve_quote {o : ReserveOps} {s : State} {f : Found} (hq : o.quote = true)
    (hf : s.reserveFind o = .ok f) :
    serveReserve o s = (s, .reserve .done o.ride
      { window := some f.index, startMin := some f.window.startMin, endMin := some f.window.endMin,
        party := some o.party, t := some f.t }) := by
  simp [serveReserve, hf, hq]

/-- A RESERVE that finds a window has passed the gate and is answered by its owner (R8, R111). -/
theorem gateServe_reserve_of_found {tag r k p g o fl : Nat} {s : State} {f : Found}
    (hf : s.reserveFind { ride := r, token := k, party := p, guard := g, operand := o, flags := fl } = .ok f) :
    gateServe tag (.reserve r k p g o fl) s =
      answered (serveReserve { ride := r, token := k, party := p, guard := g, operand := o, flags := fl } s) := by
  have hday : s.time.day = .day := State.day_of_reserveFind_ok hf
  exact gateServe_pass tag _ s (.inl (by simp [hday]))

/-- Settles O28: the request passes the gate, since it finds a window in DAY only, and the owner answers a quote with
the state it was given. -/
theorem quoteChangesNothing : Obligations.QuoteChangesNothing := by
  intro tag r k p g o s f hoff hf
  have hpop := (s.popInput_reserveFind _).trans hf
  rw [exec_reserveQuote]
  refine congrArg _ (portStep_answered tag _ s s.popInput _ hoff ?_)
  rw [gateServe_reserve_of_found hpop, serveReserve_quote rfl hpop]
  rfl

end Sys2Proof.Machine
end

section
/-! The check (R170): its register byte by byte and step by step, and its place at the end of a frame of each link. -/

namespace Sys2Proof.Machine

/-- A one-byte number is its low eight bits (R183). -/
theorem putNum_one (v : Nat) : putNum 1 v = [BitVec.ofNat 8 v] := rfl

/-- Before the first byte the register is 0xFFFF (R170). -/
theorem crc16_nil : crc16 [] = 0xFFFF#16 := rfl

/-- Bytes are taken in the order sent: the last one acts on the register the others left (R170). -/
theorem crc16_concat (bs : List Byte) (b : Byte) : crc16 (bs ++ [b]) = crcByte (crc16 bs) b := by
  simp [crc16]

/-- A byte is added into the upper eight bits of the register, which is then stepped eight times (R170). -/
theorem crcByte_eq_foldl (c : BitVec 16) (b : Byte) :
    crcByte c b = (List.range 8).foldl (fun c _ => crcShift c) (c ^^^ (b.setWidth 16 <<< 8)) := rfl

/-- The check value of the nine bytes 0x31 to 0x39 (R170). -/
theorem crc16_nine_digits :
    crc16 [0x31#8, 0x32#8, 0x33#8, 0x34#8, 0x35#8, 0x36#8, 0x37#8, 0x38#8, 0x39#8] = 0x29B1#16 := by
  decide +kernel

/-- An operations frame ends with the check over LENGTH, TAG, CLASS and the parameters (R169, R170). -/
theorem opsFrame_eq (tag cls : Nat) (ps : List Byte) {covered : List Byte}
    (h : covered = putNum 2 (ps.length + 2) ++ [BitVec.ofNat 8 tag, BitVec.ofNat 8 cls] ++ ps) :
    opsFrame tag cls ps = 0x5A#8 :: (covered ++ crcBytes covered) := by
  subst h
  simp [opsFrame, putNum_one]

/-- A poll ends with the check over its address (R45, R170, R184). -/
theorem pollFrame_eq (a : Nat) :
    pollFrame a = 0xC3#8 :: ([BitVec.ofNat 8 a] ++ crcBytes [BitVec.ofNat 8 a]) := by
  simp [pollFrame, putNum_one]

/-- A line frame ends with the check over its address, line, blink attribute and text (R170, R184). -/
theorem lineFrame_eq (a l k : Nat) (text : Text) {covered : List Byte}
    (h : covered = [BitVec.ofNat 8 a, BitVec.ofNat 8 l, BitVec.ofNat 8 k] ++ text) :
    lineFrame a l k text = 0x96#8 :: (covered ++ crcBytes covered) := by
  subst h
  simp [lineFrame, putNum_one]

/-- Settles O60: the register by the fold over the bytes and the eight steps of each, the frames by the layout of each
link. -/
theorem crcCheck : Obligations.CrcCheck := by
  refine ⟨crc16_nil, crc16_nine_digits, ?eachByte, ?highByteFirst, ?operations, pollFrame_eq, ?board⟩
  case eachByte =>
    intro bs b
    exact (crc16_concat bs b).trans (crcByte_eq_foldl _ b)
  case highByteFirst => exact fun _ => rfl
  case operations => exact fun tag cls ps => ⟨_, opsFrame_eq tag cls ps rfl, rfl⟩
  case board => exact fun a l k text => ⟨_, lineFrame_eq a l k text rfl, rfl⟩

end Sys2Proof.Machine
end

section
/-! What a step is made of: moves, each of which replaces one part of the state under a condition of its own, and the
facts that every move keeps. The invariants of the part (PortInv, DayInv, BookInv, RangeInv) are kept by every move, so
that a function of the model is taken apart into moves once, and not once for each invariant. -/

namespace Sys2Proof.Machine

open Sys2Proof.Safety

/-- No window of a ride's book is oversold, and no more flex guests are unplaced than there are (R84, R95). -/
def RideBook.Sound (b : RideBook) : Prop := (∀ w ∈ b.windows, w.issued + w.hold ≤ w.cap) ∧ b.u ≤ b.f

/-- A pass that no guest can use any more (R103). -/
def Pass.Inactive (p : Pass) : Prop := p.state ≠ .issued ∧ p.state ≠ .flex

/-- The state the end of a day leaves: every ride CLOSED and no active pass (R5). -/
def State.AtRest (s : State) : Prop := (∀ x ∈ s.units, x.2.state = .closed) ∧ ∀ x ∈ s.book.passes, x.2.Inactive

/-- When the Time Base may take a new record: CLOCK and the parameters stay in range, DAY is left at rest only, and a
pending OPENDAY is noted or dropped only while no reply waits for a place. -/
structure TimeMove (s : State) (time : TimeBase) : Prop where
  clock : s.time.clock ≤ 86399 → time.clock ≤ 86399
  day : DayInv s → time.day ≠ .day → s.time.day = .day → s.AtRest
  params : ParamsRange s.time.params → ParamsRange time.params
  opening : time.pendingOpen = s.time.pendingOpen ∨ s.port.waiting = []

/-- When the ride records may be replaced: outside DAY every ride stays CLOSED, and the fields stay in range. -/
structure UnitsMove (s : State) (units : Table RideUnit) : Prop where
  keyed : s.units.wf → units.wf
  closed : DayInv s → s.time.day ≠ .day → ∀ x ∈ units, x.2.state = .closed
  range : RangeInv s → ∀ x ∈ units, (1 ≤ x.1 ∧ x.1 ≤ 48) ∧ UnitRange x.2

/-- When the Return Book may be replaced: the tables stay in order, no window is oversold, and no pass becomes active
outside DAY. -/
structure BookMove (s : State) (book : Book) : Prop where
  rides : BookInv s → book.rides.wf
  passes : BookInv s → book.passes.wf
  sound : BookInv s → ∀ x ∈ book.rides, x.2.Sound
  inactive : DayInv s → s.time.day ≠ .day → ∀ x ∈ book.passes, x.2.Inactive

/-- When the port's own fields may be replaced: the two output lists stay, and what is counted stays in range. -/
structure PortMove (s : State) (port : Port) : Prop where
  output : port.output = s.port.output
  waiting : port.waiting = s.port.waiting
  input : s.port.input.length ≤ Config.inputPlaces → port.input.length ≤ Config.inputPlaces
  crcErrors : s.port.crcErrors ≤ Config.counterMax → port.crcErrors ≤ Config.counterMax
  timeouts : s.port.timeouts ≤ Config.counterMax → port.timeouts ≤ Config.counterMax
  overruns : s.port.overruns ≤ Config.counterMax → port.overruns ≤ Config.counterMax

/-- A slot that may stand on the send list: latched, unmasked, and not yet sent (R163). -/
def Slot.Sendable (v : Slot) : Prop := v.pending.isSome = true ∧ v.mask = false ∧ v.sent = false

/-- One move of the part. -/
inductive Move (s : State) : State → Prop where
  | time (time : TimeBase) : TimeMove s time → Move s { s with time }
  | orders (orders : Orders) : Move s { s with orders }
  | units (units : Table RideUnit) : UnitsMove s units → Move s { s with units }
  | poller (poller : Poller) : (RangeInv s → ∀ x ∈ poller.records, FieldRange x.2) → Move s { s with poller }
  | ests (ests : Table Estimator) : (RangeInv s → ∀ x ∈ ests, EstimatorRange x.2) → Move s { s with ests }
  | book (book : Book) : BookMove s book → Move s { s with book }
  | boards (boards : Composer) : (RangeInv s → ∀ x ∈ boards.table, ∀ l ∈ x.2.lines, LineRange l) →
      Move s { s with boards }
  | port (port : Port) : PortMove s port → Move s { s with port }
  | edges (edges : Edges) : Move s { s with notices := { s.notices with edges } }
  | slot (id : SlotId) (v : Slot) : (PortInv s → id ∈ s.notices.sendList → v.Sendable) → Move s (s.setSlot id v)
  | leave (id : SlotId) : Move s (leaveSendList id s)
  | join (id : SlotId) : (s.slot id).Sendable → Move s (joinSendList id s)

/-- Any number of moves. -/
abbrev Moves : State → State → Prop := Relation.ReflTransGen Move

theorem Move.moves {s t : State} (h : Move s t) : Moves s t := .single h

/-- Moves in a row, the last one named first, so that its end is known when the ones before it are read. -/
theorem moves_then {s t u : State} (last : Moves t u) (first : Moves s t) : Moves s u := first.trans last

/-! ### What every move keeps -/

/-- A move leaves the waiting commands alone. -/
theorem Move.pending {s t : State} (h : Move s t) : t.pending = s.pending := by
  cases h <;> simp

theorem Moves.pending {s t : State} (h : Moves s t) : t.pending = s.pending := by
  induction h with
  | refl => rfl
  | tail _ hm ih => exact hm.pending.trans ih

/-- The invariant of the day reads the day state, the ride records and the passes only. -/
theorem dayInv_congr {s t : State} (h : DayInv s) (hd : t.time.day = s.time.day) (hu : t.units = s.units)
    (hp : t.book.passes = s.book.passes) : DayInv t where
  keyed := hu ▸ h.keyed
  rides := by rw [hd, hu]; exact h.rides
  passes := by rw [hd, hp]; exact h.passes

/-- The invariant of the book reads the ride records' keys and the book only. -/
theorem bookInv_congr {s t : State} (h : BookInv s) (hu : t.units = s.units) (hb : t.book = s.book) : BookInv t where
  units := hu ▸ h.units
  keyed := hb ▸ h.keyed
  passes := hb ▸ h.passes
  windows := hb ▸ h.windows
  flex := hb ▸ h.flex

/-- The invariant of the ranges reads neither the book nor the notices nor the port. -/
theorem rangeInv_congr {s t : State} (h : RangeInv s) (hc : t.pending = s.pending) (ht : t.time = s.time)
    (hu : t.units = s.units) (hp : t.poller = s.poller) (he : t.ests = s.ests) (hb : t.boards = s.boards) :
    RangeInv t where
  commands := hc ▸ h.commands
  clock := ht ▸ h.clock
  params := ht ▸ h.params
  keyed := hu ▸ h.keyed
  rides := hu ▸ h.rides
  ests := he ▸ h.ests
  units := hu ▸ h.units
  fields := hp ▸ h.fields
  lines := hb ▸ h.lines

/-- The book of a ride meets the invariant of the book. -/
theorem bookInv_sound {s : State} (h : BookInv s) (x : Nat × RideBook) (hx : x ∈ s.book.rides) : x.2.Sound :=
  ⟨h.windows x hx, h.flex x hx⟩

theorem Move.dayInv {s t : State} (hm : Move s t) (h : DayInv s) : DayInv t := by
  cases hm with
  | time time ht =>
    refine ⟨h.keyed, fun hd => ?_, fun hd => ?_⟩
    · by_cases hs : s.time.day = .day
      · exact (ht.day h hd hs).1
      · exact h.rides hs
    · by_cases hs : s.time.day = .day
      · exact (ht.day h hd hs).2
      · exact h.passes hs
  | units units hu => exact ⟨hu.keyed h.keyed, hu.closed h, h.passes⟩
  | book book hb => exact ⟨h.keyed, h.rides, hb.inactive h⟩
  | _ => exact dayInv_congr h (by simp) (by simp) (by simp)

theorem Move.bookInv {s t : State} (hm : Move s t) (h : BookInv s) : BookInv t := by
  cases hm with
  | units units hu => exact ⟨hu.keyed h.units, h.keyed, h.passes, h.windows, h.flex⟩
  | book book hb =>
    exact ⟨h.units, hb.rides h, hb.passes h, fun x hx => (hb.sound h x hx).1,
      fun x hx => (hb.sound h x hx).2⟩
  | _ => exact bookInv_congr h (by simp) (by simp)

theorem Move.rangeInv {s t : State} (hm : Move s t) (h : RangeInv s) : RangeInv t := by
  cases hm with
  | time time ht =>
    exact ⟨h.commands, ht.clock h.clock, ht.params h.params, h.keyed, h.rides, h.ests, h.units, h.fields, h.lines⟩
  | units units hu =>
    exact ⟨h.commands, h.clock, h.params, hu.keyed h.keyed, fun x hx => (hu.range h x hx).1, h.ests,
      fun x hx => (hu.range h x hx).2, h.fields, h.lines⟩
  | poller poller hp => exact { h with fields := hp h }
  | ests ests he => exact { h with ests := he h }
  | boards boards hb => exact { h with lines := hb h }
  | _ => exact rangeInv_congr h (by simp) (by simp) (by simp) (by simp) (by simp) (by simp)

/-! ### The port and the send list -/

/-- Writing one slot keeps the slot table in order. -/
theorem setSlot_wf (s : State) (id : SlotId) (v : Slot) (h : s.notices.slots.wf) :
    (s.setSlot id v).notices.slots.wf := by
  unfold State.setSlot
  dsimp only
  split
  · exact Table.wf_remove _ _ h
  · exact Table.wf_put _ _ _ h

theorem portInv_setSlot {s : State} (h : PortInv s) (id : SlotId) (v : Slot)
    (hv : id ∈ s.notices.sendList → v.Sendable) : PortInv (s.setSlot id v) where
  inputs := h.inputs
  outputs := h.outputs
  waits := h.waits
  full := h.full
  listed := by
    intro j hj
    rw [State.setSlot_sendList] at hj
    rw [slot_setSlot]
    split
    case isTrue he => exact hv (he ▸ hj)
    case isFalse => exact h.listed j hj
  once := h.once
  slots := setSlot_wf s id v h.slots
  counters := h.counters

theorem portInv_leave {s : State} (h : PortInv s) (id : SlotId) : PortInv (leaveSendList id s) where
  inputs := h.inputs
  outputs := h.outputs
  waits := h.waits
  full := by
    rintro (hw | hl)
    · exact h.full (.inl hw)
    · refine h.full (.inr fun hn => hl ?_)
      simp [leaveSendList, hn]
  listed := fun j hj => h.listed j (List.mem_of_mem_filter hj)
  once := h.once.filter _
  slots := h.slots
  counters := h.counters

/-- A sendable slot that finds a free place is sent at once (R163, R176): nothing waits, so the list stays empty. -/
theorem joinSendList_sends {s : State} (id : SlotId) (l : Latched) (hl : (s.slot id).pending = some l)
    (hp : s.hasPlace = true) (hw : s.port.waiting = []) (he : s.notices.sendList = []) :
    joinSendList id s =
      { s.setSlot id { s.slot id with sent := true } with
        port := { s.port with output := s.port.output ++ [.notice id l] } } := by
  have hslot : State.slot { s with notices := { s.notices with sendList := [id] } } id = s.slot id := rfl
  have hjoin : joinSendList id s = grantPlace { s with notices := { s.notices with sendList := [id] } } := by
    simp [joinSendList, he]
  rw [hjoin, grantPlace_notice { s with notices := { s.notices with sendList := [id] } } hp hw]
  simp [grantNotice, hslot, hl, State.setSlot, he]

/-- With no free place a slot that joins the send list waits at its end (R163). -/
theorem joinSendList_waits {s : State} (id : SlotId) (hp : s.hasPlace = false) (hid : id ∉ s.notices.sendList) :
    joinSendList id s = { s with notices := { s.notices with sendList := s.notices.sendList ++ [id] } } := by
  simp only [joinSendList, List.contains_iff_mem, hid, if_false]
  exact grantPlace_full _ hp

theorem hasPlace_iff (s : State) : s.hasPlace = true ↔ s.port.output.length < Config.outputPlaces := by
  simp [State.hasPlace]

/-- While a place is free nothing waits for one. -/
theorem portInv_idle {s : State} (h : PortInv s) (hp : s.hasPlace = true) :
    s.port.waiting = [] ∧ s.notices.sendList = [] := by
  have hlt := (hasPlace_iff s).mp hp
  constructor
  · by_contra hw
    have := h.full (.inl hw)
    omega
  · by_contra hl
    have := h.full (.inr hl)
    omega

/-- An output queue with no free place is full. -/
theorem portInv_output_full {s : State} (h : PortInv s) (hp : s.hasPlace = false) :
    s.port.output.length = Config.outputPlaces := by
  have hge : ¬ s.port.output.length < Config.outputPlaces := fun hlt => by
    rw [(hasPlace_iff s).mpr hlt] at hp
    cases hp
  have := h.outputs
  omega

theorem portInv_join {s : State} (h : PortInv s) (id : SlotId) (hv : (s.slot id).Sendable) :
    PortInv (joinSendList id s) := by
  by_cases hid : id ∈ s.notices.sendList
  · rw [joinSendList, if_pos (by simpa using hid)]
    exact h
  · cases hp : s.hasPlace with
    | true =>
      obtain ⟨hw, he⟩ := portInv_idle h hp
      obtain ⟨l, hl⟩ := Option.isSome_iff_exists.mp hv.1
      rw [joinSendList_sends id l hl hp hw he]
      have hlt := (hasPlace_iff s).mp hp
      refine ⟨h.inputs, ?_, h.waits, ?_, ?_, ?_, setSlot_wf _ _ _ h.slots, h.counters⟩
      · simp only [List.length_append, List.length_singleton]; omega
      · simp [hw, he]
      · simp [he]
      · simp [he]
    | false =>
      rw [joinSendList_waits id hp hid]
      have hlen := portInv_output_full h hp
      refine ⟨h.inputs, h.outputs, h.waits, fun _ => hlen, ?_, ?_, h.slots, h.counters⟩
      · intro j hj
        rcases List.mem_append.mp hj with hj | hj
        · exact h.listed j hj
        · obtain rfl := List.mem_singleton.mp hj
          exact hv
      · exact h.once.append (List.nodup_singleton id) (by simpa using hid)

theorem Move.portInv {s t : State} (hm : Move s t) (h : PortInv s) : PortInv t := by
  cases hm with
  | time time ht =>
    refine { h with waits := ?_ }
    rcases ht.opening with he | hw
    · exact he ▸ h.waits
    · have := Bool.toNat_le time.pendingOpen.isSome
      simp only [hw, List.length_nil]
      omega
  | port port hp =>
    obtain ⟨hout, hwait, hin, hcrc, htime, hover⟩ := hp
    exact ⟨hin h.inputs, hout ▸ h.outputs, hwait ▸ h.waits, by rw [hout, hwait]; exact h.full, h.listed, h.once,
      h.slots, hcrc h.counters.1, htime h.counters.2.1, hover h.counters.2.2⟩
  | slot id v hv => exact portInv_setSlot h id v (hv h)
  | leave id => exact portInv_leave h id
  | join id hv => exact portInv_join h id hv
  | _ => exact ⟨h.inputs, h.outputs, h.waits, h.full, h.listed, h.once, h.slots, h.counters⟩

/-- A grant takes a waiting reply away or leaves the waiting replies as they are. -/
theorem grantPlace_waiting_nil (s : State) (hw : s.port.waiting = []) : (grantPlace s).port.waiting = [] := by
  have hreply : ∀ s : State, s.port.waiting = [] → (grantReply s).port.waiting = [] := by
    intro s hw
    simp [grantReply, hw]
  have hnotice : ∀ s : State, s.port.waiting = [] → (grantNotice s).port.waiting = [] := by
    intro s hw
    unfold grantNotice
    split
    · exact hw
    · dsimp only
      split
      · exact hw
      · simpa using hw
  unfold grantPlace
  split
  · split
    · exact hw
    · exact hreply s hw
    · exact hnotice s hw
    · rename_i heq _
      rw [hw] at heq
      cases heq
  · exact hw

/-- While no reply waits, no move makes one wait: only `enterReply` does. -/
theorem Move.waiting_nil {s t : State} (hm : Move s t) (hw : s.port.waiting = []) : t.port.waiting = [] := by
  cases hm with
  | port port hp => exact hp.waiting.trans hw
  | join id hv =>
    unfold joinSendList
    split
    · exact hw
    · exact grantPlace_waiting_nil _ hw
  | _ => exact hw

section

variable {s t : State}

theorem Moves.waiting_nil (hm : Moves s t) (hw : s.port.waiting = []) : t.port.waiting = [] := by
  induction hm with
  | refl => exact hw
  | tail _ hm ih => exact hm.waiting_nil ih

theorem Moves.portInv (hm : Moves s t) (h : PortInv s) : PortInv t := by
  induction hm with
  | refl => exact h
  | tail _ hm ih => exact hm.portInv ih

theorem Moves.dayInv (hm : Moves s t) (h : DayInv s) : DayInv t := by
  induction hm with
  | refl => exact h
  | tail _ hm ih => exact hm.dayInv ih

theorem Moves.bookInv (hm : Moves s t) (h : BookInv s) : BookInv t := by
  induction hm with
  | refl => exact h
  | tail _ hm ih => exact hm.bookInv ih

theorem Moves.rangeInv (hm : Moves s t) (h : RangeInv s) : RangeInv t := by
  induction hm with
  | refl => exact h
  | tail _ hm ih => exact hm.rangeInv ih

end

/-- A list of things is taken in moves if each of them is. -/
theorem moves_foldl {α : Type} {f : State → α → State} (hf : ∀ s x, Moves s (f s x)) (xs : List α) (s : State) :
    Moves s (xs.foldl f s) := by
  induction xs generalizing s with
  | nil => exact .refl
  | cons x xs ih => exact (hf s x).trans (ih (f s x))

/-- The same, where what each taking needs is a fact that the takings keep. -/
theorem moves_foldl_of {α : Type} {f : State → α → State} {p : State → Prop} (hp : ∀ s x, p s → p (f s x))
    (hf : ∀ s x, p s → Moves s (f s x)) (xs : List α) (s : State) (hs : p s) : Moves s (xs.foldl f s) := by
  induction xs generalizing s with
  | nil => exact .refl
  | cons x xs ih => exact (hf s x hs).trans (ih (f s x) (hp s x hs))

end Sys2Proof.Machine
end

section
/-! The moves of the functions that act on one part of the state: records of a table, the Notice Unit, the boards, the
Flow Estimator and the Return Book's windows. -/

namespace Sys2Proof.Machine

open Sys2Proof.Safety

/-! ### Writing one record -/

/-- A ride record may be changed where a CLOSED ride stays CLOSED outside DAY and the fields stay in range. -/
theorem moves_modUnit (s : State) (r : Nat) (f : RideUnit → RideUnit)
    (hc : ∀ u, s.units.find r = some u → u.state = .closed → s.time.day ≠ .day → (f u).state = .closed)
    (hr : RangeInv s → ∀ u, s.units.find r = some u → UnitRange u → UnitRange (f u)) : Moves s (s.modUnit r f) := by
  refine (Move.units _ ⟨fun h => by simpa using h, fun h hd x hx => ?_, fun h x hx => ?_⟩).moves
  · obtain ⟨y, hy, hk, hv⟩ := Table.mem_update _ _ _ _ hx
    have hyc := h.rides hd y hy
    rw [hv]
    split
    case isTrue heq => exact hc y.2 (heq ▸ Table.find_of_mem _ h.keyed y hy) hyc hd
    case isFalse => exact hyc
  · obtain ⟨y, hy, hk, hv⟩ := Table.mem_update _ _ _ _ hx
    refine ⟨hk ▸ h.rides y hy, ?_⟩
    rw [hv]
    split
    case isTrue heq => exact hr h y.2 (heq ▸ Table.find_of_mem _ h.keyed y hy) (h.units y hy)
    case isFalse => exact h.units y hy

/-- A change of a ride record that leaves its state alone. -/
theorem moves_modUnit_state (s : State) (r : Nat) (f : RideUnit → RideUnit) (hs : ∀ u, (f u).state = u.state)
    (hr : ∀ u, UnitRange u → UnitRange (f u)) : Moves s (s.modUnit r f) :=
  moves_modUnit s r f (fun u _ hu _ => (hs u).trans hu) (fun _ u _ => hr u)

theorem moves_modEst (s : State) (r : Nat) (f : Estimator → Estimator)
    (hf : RangeInv s → ∀ e, EstimatorRange e → EstimatorRange (f e)) : Moves s (s.modEst r f) := by
  refine (Move.ests _ fun h x hx => ?_).moves
  obtain ⟨y, hy, -, hv⟩ := Table.mem_update _ _ _ _ hx
  rw [hv]
  split
  · exact hf h _ (h.ests y hy)
  · exact h.ests y hy

theorem moves_modField (s : State) (r : Nat) (f : FieldRecord → FieldRecord)
    (hf : RangeInv s → ∀ x, FieldRange x → FieldRange (f x)) : Moves s (s.modField r f) := by
  refine (Move.poller _ fun h x hx => ?_).moves
  obtain ⟨y, hy, -, hv⟩ := Table.mem_update _ _ _ _ hx
  rw [hv]
  split
  · exact hf h _ (h.fields y hy)
  · exact h.fields y hy

/-- The line of the Field Poller and what it last sent have no range. -/
theorem moves_poller (s : State) (p : Poller) (hp : p.records = s.poller.records) :
    Moves s { s with poller := p } :=
  (Move.poller p fun h => hp ▸ h.fields).moves

theorem moves_modBoard (s : State) (a : Nat) (f : Board → Board)
    (hf : RangeInv s → ∀ b, (∀ l ∈ b.lines, LineRange l) → ∀ l ∈ (f b).lines, LineRange l) :
    Moves s (s.modBoard a f) := by
  refine (Move.boards _ fun h x hx => ?_).moves
  obtain ⟨y, hy, -, hv⟩ := Table.mem_update _ _ _ _ hx
  rw [hv]
  split
  · exact hf h _ (h.lines y hy)
  · exact h.lines y hy

/-- A change of the Board Composer that leaves the boards alone. -/
theorem moves_composer (s : State) (c : Composer) (hc : c.table = s.boards.table) : Moves s { s with boards := c } :=
  (Move.boards c fun h => hc ▸ h.lines).moves

/-- A ride's book may be changed where it stays sound. -/
theorem moves_modBook (s : State) (r : Nat) (f : RideBook → RideBook)
    (hf : ∀ b, s.book.rides.find r = some b → b.Sound → (f b).Sound) : Moves s (s.modBook r f) := by
  refine Move.moves (Move.book { s.book with rides := s.book.rides.update r f }
    ⟨fun h => by simpa using h.keyed, fun h => h.passes, fun h x hx => ?_, fun h => h.passes⟩)
  obtain ⟨y, hy, -, hv⟩ := Table.mem_update _ _ _ _ hx
  rw [hv]
  split
  case isTrue heq => exact hf y.2 (heq ▸ Table.find_of_mem _ h.keyed y hy) (bookInv_sound h y hy)
  case isFalse => exact bookInv_sound h y hy

theorem moves_bookMove (s : State) (b : Book) (h : BookMove s b) : Moves s { s with book := b } := (Move.book b h).moves

/-- A change of the Return Book that leaves the rides' books and the passes alone. -/
theorem moves_book (s : State) (b : Book) (hr : b.rides = s.book.rides) (hp : b.passes = s.book.passes) :
    Moves s { s with book := b } :=
  (Move.book b ⟨fun h => hr ▸ h.keyed, fun h => hp ▸ h.passes, fun h => hr ▸ bookInv_sound h, fun h => hp ▸ h.passes⟩).moves

theorem moves_timeMove (s : State) (t : TimeBase) (h : TimeMove s t) : Moves s { s with time := t } :=
  (Move.time t h).moves

/-! ### Orders -/

theorem moves_takeReportOrder (s : State) : Moves s s.takeReportOrder.2 := by
  unfold State.takeReportOrder
  split
  · exact (Move.orders _).moves
  · exact (Move.orders _).moves

theorem moves_takeTickOrder (s : State) : Moves s s.takeTickOrder.2 := by
  unfold State.takeTickOrder
  split
  · exact (Move.orders _).moves
  · exact (Move.orders _).moves

theorem moves_takeHandover (s : State) : Moves s s.takeHandover.2 := by
  unfold State.takeHandover
  split
  · exact (Move.orders _).moves
  · exact (Move.orders _).moves

theorem moves_takeGraceOrder (s : State) : Moves s s.takeGraceOrder.2 := by
  unfold State.takeGraceOrder
  split
  · exact (Move.orders _).moves
  · exact (Move.orders _).moves

/-! ### Notices -/

theorem moves_setPending (id : SlotId) (level : Bool) (detail : Nat) (s : State) :
    Moves s (setPending id level detail s) := by
  cases hp : (s.slot id).pending with
  | some l =>
    rw [setPending_pending id level detail s (by simp [hp])]
  | none =>
    have hslot : Moves s (s.setSlot id { s.slot id with
        pending := some { clock := s.clockNow.getD 0, level, detail }, sent := false }) :=
      (Move.slot id _ fun h hid => by
        obtain ⟨hpend, -, -⟩ := h.listed id hid
        rw [hp] at hpend
        cases hpend).moves
    cases hm : (s.slot id).mask with
    | true => exact setPending_masked id level detail s hp hm ▸ hslot
    | false =>
      rw [setPending_unmasked id level detail s hp hm]
      exact hslot.trans (Move.join id (by simp [Slot.Sendable, hm])).moves

theorem moves_reportEvent (cls : NoteClass) (src detail : Nat) (s : State) : Moves s (reportEvent cls src detail s) :=
  moves_setPending _ _ _ s

theorem moves_reportLevel (cls : NoteClass) (src : Nat) (level : Bool) (detail : Nat) (s : State) :
    Moves s (reportLevel cls src level detail s) := by
  unfold reportLevel
  dsimp only
  have hslot : Moves s (s.setSlot ⟨cls, src⟩ { s.slot ⟨cls, src⟩ with image := level }) :=
    (Move.slot _ { s.slot ⟨cls, src⟩ with image := level } fun h hid => h.listed _ hid).moves
  split
  · exact .refl
  · split
    · exact hslot.trans (moves_setPending _ _ _ _)
    · exact hslot

theorem moves_rideGone (r : Nat) (s : State) : Moves s (rideGone r s) :=
  moves_foldl (fun s cls => moves_reportLevel cls r false 0 s) _ s

theorem moves_setMask (id : SlotId) (s : State) : Moves s (setMask id s) := by
  have hcomm : setMask id s = (leaveSendList id s).setSlot id { s.slot id with mask := true } := rfl
  rw [hcomm]
  refine (Move.leave id).moves.trans (Move.slot id _ fun _ hid => ?_).moves
  simp [leaveSendList] at hid

theorem moves_clearMask (id : SlotId) (s : State) : Moves s (clearMask id s) := by
  have hslot : Moves s (s.setSlot id { s.slot id with mask := false }) :=
    (Move.slot id _ fun h hid => by
      obtain ⟨hp, -, hs⟩ := h.listed id hid
      exact ⟨hp, rfl, hs⟩).moves
  unfold clearMask
  dsimp only
  split
  case isTrue h =>
    simp only [Bool.and_eq_true, Bool.not_eq_true'] at h
    obtain ⟨⟨-, hp⟩, hs⟩ := h
    exact hslot.trans (Move.join id (by simp [Slot.Sendable, hp, hs])).moves
  case isFalse => exact hslot

theorem moves_maskAction (action : Nat) (s : State) (id : SlotId) : Moves s (maskAction action s id) := by
  unfold maskAction
  split
  · exact moves_setMask id s
  · exact moves_clearMask id s
  · exact .refl

theorem moves_edgeAction (action cls : Nat) (s : State) : Moves s (edgeAction action cls s) := by
  unfold edgeAction
  split
  · exact (Move.edges _).moves
  · exact (Move.edges _).moves
  · exact .refl

theorem moves_applyNote (s : State) (e : NoteEntry) : Moves s (applyNote s e) :=
  (moves_edgeAction e.edge e.cls s).trans (moves_foldl (moves_maskAction e.mask) _ _)

theorem moves_clearSlot (x : State × Nat) (id : SlotId) : Moves x.1 (clearSlot x id).1 := by
  unfold clearSlot
  split
  · have hcomm : leaveSendList id (x.1.setSlot id { x.1.slot id with pending := none, sent := false }) =
        (leaveSendList id x.1).setSlot id { x.1.slot id with pending := none, sent := false } := rfl
    dsimp only
    rw [hcomm]
    refine (Move.leave id).moves.trans (Move.slot id _ fun _ hid => ?_).moves
    simp [leaveSendList] at hid
  · exact .refl

/-! ### Boards -/

theorem lineRange_blinkFor {l : Line} {passes : Nat} (r : Nat) (h : LineRange l) (hp : passes ≤ 15) :
    LineRange (l.blinkFor passes r) := by
  unfold Line.blinkFor
  split
  · exact ⟨h.left, h.text, hp⟩
  · exact h

theorem moves_blinkRide (r : Nat) (s : State) : Moves s (blinkRide r s) := by
  refine (Move.boards _ fun h x hx => ?_).moves
  obtain ⟨y, hy, -, hv⟩ := Table.mem_each _ _ _ hx
  rw [hv]
  rintro l hl
  obtain ⟨l', hl', rfl⟩ := List.mem_map.mp hl
  exact lineRange_blinkFor r (h.lines y hy l' hl') h.params.blinkPasses

theorem moves_judgeBoard (a : Nat) (s : State) : Moves s (judgeBoard a s) := by
  unfold judgeBoard
  split
  · exact .refl
  · split
    · exact .refl
    · exact moves_then (moves_reportLevel _ _ _ _ _) (moves_modBoard s a _ fun _ b h => h)

/-- A report about a board's presence changes none of its lines. -/
theorem moves_takePresence (a : Nat) (f : Board → Board) (s : State) (hf : ∀ b, (f b).lines = b.lines) :
    Moves s (takePresence a f s) := by
  have hmod : Moves s (s.modBoard a f) := moves_modBoard s a f fun _ b h => by rw [hf]; exact h
  unfold takePresence
  split
  · exact .refl
  · dsimp only
    split
    · exact hmod
    · exact hmod.trans (moves_judgeBoard a _)

theorem moves_startPass (s : State) : Moves s (startPass s) := by
  refine (Move.boards _ fun h x hx => ?_).moves
  obtain ⟨y, hy, -, hv⟩ := Table.mem_each _ _ _ hx
  rw [hv]
  exact h.lines y hy

theorem moves_endPass (s : State) : Moves s (endPass s) := by
  have hnone : Moves s { s with boards := { s.boards with pass := none } } := moves_composer s _ rfl
  unfold endPass
  dsimp only
  split
  · exact hnone.trans (moves_startPass _)
  · exact hnone

theorem moves_chooseNext (s : State) : Moves s (chooseNext s) := by
  unfold chooseNext
  split
  · exact .refl
  · split
    · exact .refl
    · exact moves_endPass s

theorem moves_abandonFrame (a : Nat) (s : State) : Moves s (abandonFrame a s) := by
  unfold abandonFrame
  split
  · split
    · exact moves_composer s _ rfl
    · exact .refl
  · exact .refl
  · exact .refl

theorem moves_passOver (a : Nat) (s : State) : Moves s (passOver a s) := by
  unfold passOver
  split
  · split
    · exact moves_composer s _ rfl
    · exact .refl
  · exact .refl

theorem moves_intervalExpiry (s : State) : Moves s (intervalExpiry s) := by
  unfold intervalExpiry
  split
  · split
    · exact moves_startPass s
    · exact moves_composer s _ rfl
  · exact .refl

theorem moves_passStartDue (s : State) : Moves s (passStartDue s) := by
  unfold passStartDue
  split
  · exact .refl
  · split
    · exact moves_startPass s
    · exact .refl

theorem moves_takeBoardByte (status : Byte) (s : State) : Moves s (takeBoardByte status s) := by
  unfold takeBoardByte
  split
  · exact moves_then (moves_chooseNext _)
      (moves_then (moves_takePresence _ _ _ fun _ => rfl) (moves_composer s _ rfl))
  · exact .refl
  · exact .refl

theorem moves_takeBoardMiss (s : State) : Moves s (takeBoardMiss s) := by
  unfold takeBoardMiss
  split
  · exact moves_then (moves_chooseNext _)
      (moves_then (moves_takePresence _ _ _ fun _ => rfl) (moves_composer s _ rfl))
  · exact .refl
  · exact .refl

theorem moves_reservedWindowClose (s : State) : Moves s (reservedWindowClose s) := by
  have hidle : Moves s { s with boards := { s.boards with line := .idle } } := moves_composer s _ rfl
  unfold reservedWindowClose
  split
  · dsimp only
    split
    · exact hidle.trans (moves_startPass _)
    · exact hidle.trans (moves_chooseNext _)
  · exact .refl
  · exact .refl

/-- An override that has minutes left is not expired: in range there is always one left. -/
theorem expire_of_lineRange {l : Line} (h : LineRange l) : l.expire = l :=
  line_expire_of_left l fun o n ho hn => (h.left o n ho hn).1

theorem lineRange_expire {l : Line} (h : LineRange l) : LineRange l.expire := by
  rw [expire_of_lineRange h]
  exact h

/-- The minute tick of a line's override, case by case (R155). -/
theorem countDown_minutes {l : Line} {text : Text} {n : Nat} (h : l.override = some { text, left := .minutes n }) :
    l.countDown = if n ≤ 1 then { l with override := none }
      else { l with override := some { text, left := .minutes (n - 1) } } := by
  simp only [Line.countDown, h, Line.expire]
  rcases Nat.lt_or_ge 1 n with hn | hn
  · obtain ⟨k, rfl⟩ : ∃ k, n = k + 2 := ⟨n - 2, by omega⟩
    simp
  · have hzero : n - 1 = 0 := by omega
    simp [hzero, hn]

theorem countDown_untilReleased {l : Line} {text : Text} (h : l.override = some { text, left := .untilReleased }) :
    l.countDown = l := by
  simp [Line.countDown, h]

theorem countDown_none {l : Line} (h : l.override = none) : l.countDown = l := by
  simp [Line.countDown, h]

theorem lineRange_countDown {l : Line} (h : LineRange l) : LineRange l.countDown := by
  match ho : l.override with
  | none => rwa [countDown_none ho]
  | some { text, left := .untilReleased } => rwa [countDown_untilReleased ho]
  | some { text, left := .minutes n } =>
    obtain ⟨hlow, hhigh⟩ := h.left _ n ho rfl
    have htext := h.text _ ho
    rw [countDown_minutes ho]
    split
    · exact ⟨by simp, by simp, h.blink⟩
    · refine ⟨?_, by simpa using htext, h.blink⟩
      rintro o k ho' hk
      obtain rfl := Option.some.inj ho'
      obtain rfl := Left.minutes.inj hk
      omega

theorem moves_countOverrides (s : State) : Moves s (countOverrides s) := by
  refine (Move.boards _ fun h x hx => ?_).moves
  obtain ⟨y, hy, -, hv⟩ := Table.mem_each _ _ _ hx
  rw [hv]
  rintro l hl
  obtain ⟨l', hl', rfl⟩ := List.mem_map.mp hl
  exact lineRange_countDown (h.lines y hy l' hl')

/-- A line of a board is changed in place: the board's lines keep what every line has and the change keeps. -/
theorem modLine_lines {p : Line → Prop} (b : Board) (n : Nat) (f : Line → Line) (hb : ∀ l ∈ b.lines, p l)
    (hf : ∀ l, p l → p (f l)) : ∀ l ∈ (b.modLine n f).lines, p l := by
  unfold Board.modLine
  split
  · exact hb
  · intro l hl
    obtain ⟨i, hi, rfl⟩ := List.mem_iff_getElem.mp hl
    rw [List.getElem_modify]
    have hmem : ∀ h : i < b.lines.length, p b.lines[i] := fun h => hb _ (List.getElem_mem h)
    split
    · exact hf _ (hmem _)
    · exact hmem _

theorem moves_expireOverride (a l : Nat) (s : State) : Moves s (expireOverride a l s) :=
  moves_modBoard s a _ fun _ b hb => modLine_lines b l _ hb fun _ => lineRange_expire

theorem lineRange_compose {l : Line} (c : Composed) (h : LineRange l) : LineRange (l.compose c) :=
  ⟨h.left, h.text, by have := h.blink; simp only [Line.compose]; omega⟩

theorem moves_sendLine (a n : Nat) (s : State) : Moves s (sendLine a n s) := by
  unfold sendLine
  split
  · exact .refl
  · split
    · exact .refl
    · exact moves_then (moves_composer _ _ rfl)
        (moves_modBoard s a _ fun _ b hb => modLine_lines b n _ hb fun _ => lineRange_compose _)

theorem moves_sendNextLine (s : State) : Moves s (sendNextLine s) := by
  unfold sendNextLine
  split
  · split
    · exact moves_endPass s
    · exact moves_sendLine _ _ s
  · exact .refl

/-! ### The Flow Estimator -/

/-- A published wait that POST_MAX bounds (R74). -/
theorem candidate_le {p : Params} (h : ParamsRange p) (wt : Nat) : (candidate p wt).value ≤ 240 := by
  obtain ⟨-, hmax, hdvd⟩ := h.postMax
  unfold candidate
  split
  · exact hmax
  case isFalse hlt =>
    obtain ⟨k, hk⟩ := hdvd
    have hstep : 0 < p.step := by
      rcases Nat.eq_zero_or_pos p.step with h0 | h0
      · simp [h0] at hk
        omega
      · exact h0
    have hle : ceilDiv wt p.step ≤ k := by
      unfold ceilDiv
      refine Nat.lt_succ_iff.mp ((Nat.div_lt_iff_lt_mul hstep).mpr ?_)
      rw [Nat.succ_mul, Nat.mul_comm k]
      omega
    calc ceilDiv wt p.step * p.step ≤ k * p.step := Nat.mul_le_mul_right _ hle
      _ = p.postMax := by rw [hk, Nat.mul_comm]
      _ ≤ 240 := hmax

theorem rawWait_le (q s : Nat) : rawWait q s ≤ Config.waitMax := by
  unfold rawWait
  split
  · exact Nat.zero_le _
  · split
    · exact le_rfl
    · rw [saturate_eq_min]
      exact Nat.min_le_left _ _

theorem saturate_le (bound v : Nat) : saturate bound v ≤ bound := by
  rw [saturate_eq_min]
  exact Nat.min_le_left _ _

theorem estimatorRange_compute {e : Estimator} (p : Params) (u : RideUnit) (h : EstimatorRange e) :
    EstimatorRange (e.compute p u).1 :=
  { h with wr := rawWait_le _ _, wt := saturate_le _ _ }

theorem moves_setWait (r : Nat) (w : Option Wait) (s : State)
    (hw : RangeInv s → ∀ v, w = some v → v.value ≤ 240) : Moves s (setWait r w s) := by
  have hmod : Moves s (blinkRide r (s.modEst r fun e => { e with wait := w })) :=
    moves_then (moves_blinkRide r _) (moves_modEst s r _ fun h _ he =>
      ⟨he.q, he.s, he.sr, he.m, he.mr, he.heldMin, he.staleTimer, he.wr, he.wt, hw h⟩)
  unfold setWait
  split
  · exact .refl
  · split
    · exact .refl
    · dsimp only
      split
      · split
        · exact hmod.trans (moves_reportEvent _ _ _ _)
        · exact hmod
      · exact hmod

theorem moves_setWait_none (r : Nat) (s : State) : Moves s (setWait r none s) :=
  moves_setWait r none s fun _ _ hv => nomatch hv

theorem moves_computeOnly (r : Nat) (s : State) : Moves s (computeOnly r s) := by
  unfold computeOnly
  split
  · exact moves_modEst s r _ fun _ e he => estimatorRange_compute _ _ he
  · exact .refl

/-- Computing the wait of a ride and dropping its RENEW. -/
theorem moves_computed (r : Nat) (u : RideUnit) (s : State) :
    Moves s (s.modEst r fun e => { (e.compute s.time.params u).1 with renew := false }) :=
  moves_modEst s r _ fun _ _ he =>
    { estimatorRange_compute s.time.params u he with }

/-- Setting the wait to the candidate that the computation gave. -/
theorem moves_setCandidate (r : Nat) (u : RideUnit) (e : Estimator) (s : State) :
    Moves s (setWait r (some (e.compute s.time.params u).2)
      (s.modEst r fun e => { (e.compute s.time.params u).1 with renew := false })) := by
  refine (moves_computed r u s).trans (moves_setWait r _ _ fun h v hv => ?_)
  obtain rfl := Option.some.inj hv
  exact candidate_le h.params _

theorem moves_publishNow (r : Nat) (s : State) : Moves s (publishNow r s) := by
  unfold publishNow
  split
  · exact moves_setCandidate r _ _ s
  · exact .refl

theorem moves_publishMinute (r : Nat) (s : State) : Moves s (publishMinute r s) := by
  unfold publishMinute
  split
  · dsimp only
    split
    · exact moves_computed r _ s
    · split
      · exact moves_setCandidate r _ _ s
      · split
        · exact moves_setCandidate r _ _ s
        · exact moves_computed r _ s
  · exact .refl

theorem moves_setStale (r : Nat) (s : State) : Moves s (setStale r s) :=
  moves_then (moves_setWait_none r _) (moves_modEst s r _ fun _ _ he => { he with })

theorem moves_staleCheck (r : Nat) (s : State) : Moves s (staleCheck r s) := by
  unfold staleCheck
  split
  · split
    · exact moves_setStale r s
    · exact .refl
  · exact .refl

theorem moves_staleMinute (r : Nat) (s : State) : Moves s (staleMinute r s) := by
  unfold staleMinute
  split
  · split
    · exact moves_then (moves_staleCheck r _)
        (moves_modEst s r _ fun _ _ he => { he with staleTimer := saturate_le _ _ })
    · exact .refl
  · exact .refl

/-- What a state change report does to the estimator record itself, before the wait (R73, R60, R66). -/
def Estimator.hears (new : RideState) (e : Estimator) : Estimator :=
  let e := if new.isHeld then { e with heldMin := 0 } else e
  let e := if new = .closed then { e with q := 0 } else e
  if new = .opened ∨ new = .closing then e else { e with eligible := false }

theorem estimatorHears_eq (r : Nat) (new : RideState) (s : State) :
    estimatorHears r new s =
      if new.inService then
        match (s.modEst r (Estimator.hears new)).ests.find r with
        | some e => if e.stale then computeOnly r (s.modEst r (Estimator.hears new))
            else publishNow r (s.modEst r (Estimator.hears new))
        | none => s.modEst r (Estimator.hears new)
      else setWait r none (s.modEst r (Estimator.hears new)) := rfl

theorem estimatorRange_hears {e : Estimator} (new : RideState) (h : EstimatorRange e) :
    EstimatorRange (e.hears new) := by
  have hheld : EstimatorRange (if new.isHeld then { e with heldMin := 0 } else e) := by
    split
    · exact { h with heldMin := Nat.zero_le _ }
    · exact h
  have hq : EstimatorRange (if new = .closed then
      { (if new.isHeld then { e with heldMin := 0 } else e) with q := 0 }
      else if new.isHeld then { e with heldMin := 0 } else e) := by
    split
    · exact { hheld with q := Nat.zero_le _ }
    · exact hheld
  unfold Estimator.hears
  dsimp only
  split
  · exact hq
  · exact { hq with }

theorem moves_estimatorHears (r : Nat) (new : RideState) (s : State) : Moves s (estimatorHears r new s) := by
  have hmod : Moves s (s.modEst r (Estimator.hears new)) :=
    moves_modEst s r _ fun _ e => estimatorRange_hears new
  rw [estimatorHears_eq]
  split
  · split
    · split
      · exact hmod.trans (moves_computeOnly r _)
      · exact hmod.trans (moves_publishNow r _)
    · exact hmod
  · exact hmod.trans (moves_setWait_none r _)

theorem moves_estimatorLink (r : Nat) (prev new : Link) (s : State) : Moves s (estimatorLink r prev new s) := by
  have hlost : Moves s (s.modEst r fun e => { e with eligible := false, staleTimer := 0 }) :=
    moves_modEst s r _ fun _ e he => { he with staleTimer := Nat.zero_le _ }
  unfold estimatorLink
  split
  · dsimp only
    split
    · exact hlost.trans (moves_setStale r _)
    · exact hlost
  · split
    · exact moves_modEst s r _ fun _ e he => { he with staleTimer := Nat.zero_le _ }
    · exact .refl

theorem moves_clearEligible (s : State) : Moves s (clearEligible s) := by
  refine (Move.ests _ fun h x hx => ?_).moves
  obtain ⟨y, hy, -, hv⟩ := Table.mem_each _ _ _ hx
  rw [hv]
  exact { h.ests y hy with }

theorem estimatorRange_takeCounts {e : Estimator} (closed : Bool) (entered standby ret : Nat) (h : EstimatorRange e) :
    EstimatorRange (e.takeCounts closed entered standby ret) := by
  refine { h with q := ?_, m := saturate_le _ _, mr := saturate_le _ _ }
  unfold Estimator.takeCounts
  dsimp only
  split
  · exact h.q
  · exact saturate_le _ _

/-! ### The Return Book -/

theorem moves_judgeSlots (r : Nat) (s : State) : Moves s (judgeSlots r s) := by
  unfold judgeSlots
  split
  · exact .refl
  · exact moves_then (moves_reportLevel _ _ _ _ _) (moves_modBook s r _ fun b _ hb => hb)

theorem moves_judgeFlex (r : Nat) (s : State) : Moves s (judgeFlex r s) := by
  unfold judgeFlex
  dsimp only
  split
  · exact .refl
  · exact moves_then (moves_reportLevel _ _ _ _ _) (moves_modBook s r _ fun b _ hb => hb)

theorem moves_judgeBook (s : State) : Moves s (judgeBook s) := by
  unfold judgeBook
  split
  · exact .refl
  · exact moves_then (moves_reportLevel _ _ _ _ _) (moves_book s _ rfl rfl)

/-- The walk of a placement oversells no window and places no more guests than there are (R96). -/
theorem placeWalk_sound (u : Nat) (ws : List Window) (h : ∀ w ∈ ws, w.issued + w.hold ≤ w.cap) :
    (placeWalk u ws).1 ≤ u ∧ ∀ w ∈ (placeWalk u ws).2, w.issued + w.hold ≤ w.cap := by
  induction ws generalizing u with
  | nil => exact ⟨le_rfl, h⟩
  | cons w ws ih =>
    obtain ⟨hw, hws⟩ := List.forall_mem_cons.mp h
    unfold placeWalk
    split
    · obtain ⟨hle, hsound⟩ := ih u hws
      exact ⟨hle, List.forall_mem_cons.mpr ⟨hw, hsound⟩⟩
    · obtain ⟨hle, hsound⟩ := ih (u - w.holdFor u) hws
      refine ⟨hle.trans (Nat.sub_le _ _), List.forall_mem_cons.mpr ⟨?_, hsound⟩⟩
      have hfor : w.holdFor u ≤ w.cap - w.issued - w.hold := by simp [Window.holdFor]
      dsimp only
      omega

theorem RideBook.Sound.place {b : RideBook} (h : b.Sound) (m : Nat) : (b.place m).Sound := by
  unfold RideBook.place
  split
  · exact h
  case h_2 i _ =>
    obtain ⟨hle, hsound⟩ := placeWalk_sound b.u (b.windows.drop i) fun w hw => h.1 w (List.mem_of_mem_drop hw)
    refine ⟨fun w hw => ?_, hle.trans h.2⟩
    rcases List.mem_append.mp hw with hw | hw
    · exact h.1 w (List.mem_of_mem_take hw)
    · exact hsound w hw

/-- A book stays sound when each window is changed in a way that oversells none. -/
theorem RideBook.Sound.map {b : RideBook} (h : b.Sound) {f : Window → Window}
    (hf : ∀ w, w.issued + w.hold ≤ w.cap → (f w).issued + (f w).hold ≤ (f w).cap) :
    RideBook.Sound { b with windows := b.windows.map f } := by
  refine ⟨fun w hw => ?_, h.2⟩
  obtain ⟨w', hw', rfl⟩ := List.mem_map.mp hw
  exact hf w' (h.1 w' hw')

/-- The same for one window of it. -/
theorem RideBook.Sound.modify {b : RideBook} (h : b.Sound) (i : Nat) {f : Window → Window}
    (hf : ∀ w, b.windows[i]? = some w → w.issued + w.hold ≤ w.cap → (f w).issued + (f w).hold ≤ (f w).cap) :
    RideBook.Sound { b with windows := b.windows.modify i f } := by
  refine ⟨fun w hw => ?_, h.2⟩
  obtain ⟨j, hj, rfl⟩ := List.mem_iff_getElem.mp hw
  have hlt : j < b.windows.length := by simpa using hj
  rw [List.getElem_modify]
  split
  case isTrue heq => exact hf _ (heq ▸ List.getElem?_eq_getElem hlt) (h.1 _ (List.getElem_mem hlt))
  case isFalse => exact h.1 _ (List.getElem_mem hlt)

theorem moves_place (r : Nat) (s : State) : Moves s (place r s) := by
  unfold Machine.place
  split
  · exact .refl
  · split
    · exact moves_modBook s r _ fun b _ hb => hb.place _
    · exact .refl

theorem window_mark_counts (e : Nat) (w : Window) :
    (w.mark e).issued = w.issued ∧ (w.mark e).hold = w.hold ∧ (w.mark e).cap = w.cap := by
  unfold Window.mark
  split <;> exact ⟨rfl, rfl, rfl⟩

theorem moves_markWindows (r : Nat) (since : Option Nat) (s : State) : Moves s (markWindows r since s) := by
  unfold markWindows
  split
  · exact .refl
  · refine moves_modBook s r _ fun b _ hb => hb.map fun w hw => ?_
    obtain ⟨hi, hh, hc⟩ := window_mark_counts (_ / 60) w
    rw [hi, hh, hc]
    exact hw

/-- What the Return Book does with a state change before it judges the SLOTS level (R90, R91). -/
def bookTakes (r : Nat) (new : RideState) (since : Option Nat) (s : State) : State :=
  let s := if new.inService then s else markWindows r since s
  if new = .opened then judgeFlex r (place r s) else s

theorem bookHears_eq (r : Nat) (new : RideState) (since : Option Nat) (s : State) :
    bookHears r new since s = judgeSlots r (bookTakes r new since s) := rfl

theorem moves_bookHears (r : Nat) (new : RideState) (since : Option Nat) (s : State) :
    Moves s (bookHears r new since s) := by
  have hmark : Moves s (if new.inService then s else markWindows r since s) := by
    split
    · exact .refl
    · exact moves_markWindows r since s
  rw [bookHears_eq]
  refine Relation.ReflTransGen.trans (hmark.trans ?_) (moves_judgeSlots r _)
  unfold bookTakes
  dsimp only
  generalize (if new.inService then s else markWindows r since s) = s'
  split
  · exact (moves_place r s').trans (moves_judgeFlex r _)
  · exact .refl

theorem moves_takeLate (pick : StateReport → Bool) (s : State) : Moves s (takeLate pick s) :=
  moves_then (moves_foldl (fun s _ => moves_bookHears _ _ _ s) _ _) (moves_book s _ rfl rfl)

theorem moves_reportToBook (rep : StateReport) (s : State) : Moves s (reportToBook rep s) := by
  unfold reportToBook
  split
  · exact moves_then (moves_book _ _ (by simp) (by simp)) (moves_takeGraceOrder s)
  · refine Relation.ReflTransGen.trans ?_ (moves_bookHears _ _ _ _)
    refine Relation.ReflTransGen.trans ?_ (moves_takeLate _ _)
    split
    · exact moves_takeGraceOrder s
    · exact .refl

/-- A pass is retired into a state that is no active one (R103, R105). -/
theorem moves_retirePass (n : Nat) (st : PassState) (s : State) (hst : st ≠ .issued ∧ st ≠ .flex) :
    Moves s (retirePass n st s) := by
  unfold retirePass
  split
  · exact .refl
  · refine Move.moves (Move.book _ ⟨fun h => h.keyed, fun h => by simpa using h.passes, bookInv_sound, fun h hd x hx => ?_⟩)
    obtain ⟨y, hy, -, hv⟩ := Table.mem_update _ _ _ _ hx
    rw [hv]
    split
    · exact hst
    · exact h.passes hd y hy

/-- A pass becomes a flex pass in DAY only. -/
theorem moves_convertPass (r n : Nat) (s : State) (hd : s.time.day = .day) : Moves s (convertPass r n s) := by
  unfold convertPass
  split
  · exact .refl
  · refine Relation.ReflTransGen.trans (Move.book _ ?_).moves (moves_modBook _ r _ fun b _ hb => ?_)
    · exact ⟨fun h => h.keyed, fun h => by simpa using h.passes, bookInv_sound, fun _ hn => absurd hd hn⟩
    · exact ⟨hb.1, Nat.add_le_add_right hb.2 _⟩

theorem moves_modWindow (s : State) (r i : Nat) (f : Window → Window)
    (hf : ∀ w, (s.rideBook r).windows[i]? = some w → w.issued + w.hold ≤ w.cap →
      (f w).issued + (f w).hold ≤ (f w).cap) : Moves s (s.modWindow r i f) :=
  moves_modBook s r _ fun b hb h => h.modify i fun w hw => hf w (by
    have hbook : s.rideBook r = b := by simp [State.rideBook, hb]
    rw [hbook]
    exact hw)

theorem moves_disposeWindow (r i : Nat) (w : Window) (s : State) (hd : s.time.day = .day) :
    Moves s (disposeWindow r i w s) := by
  unfold disposeWindow
  refine Relation.ReflTransGen.trans ?_ (moves_modWindow _ r i _ fun w _ hw => ?_)
  · split
    · exact moves_foldl_of (p := fun s => s.time.day = .day) (fun s n h => by simpa using h)
        (fun s n h => moves_convertPass r n s h) _ s hd
    · exact moves_foldl (fun s n => moves_retirePass n .expired s ⟨nofun, nofun⟩) _ s
  · simp only [Window.settle]
    omega

theorem moves_settleWindow (r i : Nat) (w : Window) (s : State) (hd : s.time.day = .day) :
    Moves s (settleWindow r i w s) := by
  unfold settleWindow
  dsimp only
  refine (moves_disposeWindow r i w s hd).trans (Relation.ReflTransGen.trans ?_ (moves_judgeSlots r _))
  split
  · exact moves_place r _
  · exact .refl

theorem moves_windowStart (i r : Nat) (s : State) : Moves s (windowStart i r s) := by
  unfold windowStart
  split
  · split
    · exact .refl
    · exact moves_then (moves_judgeSlots r _) (moves_modWindow s r i _ fun w _ hw => hw)
  · exact .refl

theorem moves_endGrid (r : Nat) (s : State) : Moves s (endGrid r s) :=
  moves_then (moves_judgeSlots r _) (moves_modBook s r _ fun _ _ hb => hb)

end Sys2Proof.Machine
end

section
/-! The moves of a state change, and of the functions of the Ride State Unit, the Field Poller and the Time Base that are
built on it. -/

namespace Sys2Proof.Machine

open Sys2Proof.Safety

/-! ### A state change (R23) -/

theorem clockNow_le {s : State} (h : s.time.clock ≤ 86399) : ∀ t, s.clockNow = some t → t ≤ 86399 := by
  intro t ht
  unfold State.clockNow at ht
  split at ht
  · cases ht
  · obtain rfl := Option.some.inj ht
    exact h

theorem unitRange_enter {u : RideUnit} (new : RideState) {since : Option Nat} (h : UnitRange u)
    (hs : ∀ t, since = some t → t ≤ 86399) : UnitRange (u.enter new since) := by
  refine ⟨h.config, hs, ?_, h.fault, h.clear, ?_, ?_⟩ <;> dsimp only [RideUnit.enter] <;> split
  · exact Nat.zero_le _
  · exact h.stall
  · exact Nat.zero_le _
  · exact h.testDispatches
  · exact Nat.zero_le _
  · exact h.testMinutes

theorem moves_hear (rep : StateReport) (s : State) (h : Hearer) : Moves s (hear rep s h) := by
  cases h with
  | estimator => exact moves_estimatorHears _ _ s
  | book => exact moves_reportToBook rep s
  | boards => exact moves_blinkRide _ s
  | stallNotice =>
    unfold hear
    dsimp only
    split
    · exact .refl
    · exact moves_reportLevel _ _ _ _ s
  | stateNotice => exact moves_reportEvent _ _ _ s

/-- A ride changes its state in moves: a CLOSED one in DAY only, unless it stays CLOSED. -/
theorem moves_changeState (r : Nat) (new : RideState) (s : State)
    (h : ∀ u, s.units.find r = some u → u.state = .closed → s.time.day ≠ .day → new = .closed) :
    Moves s (changeState r new s) := by
  unfold changeState
  split
  · exact .refl
  case h_2 u hu =>
    refine moves_then (moves_foldl (moves_hear _) _ _) (moves_then (moves_takeReportOrder _) ?_)
    exact moves_modUnit s r _ (fun v hv hc hd => h v hv hc hd)
      fun hinv v _ hv => unitRange_enter new hv (clockNow_le hinv.clock)

theorem moves_closeCheck (r : Nat) (s : State) : Moves s (closeCheck r s) := by
  unfold closeCheck
  split
  · exact moves_changeState r .closed s fun _ _ _ _ => rfl
  · exact .refl

theorem moves_enterState (r : Nat) (new : RideState) (s : State)
    (h : ∀ u, s.units.find r = some u → u.state = .closed → s.time.day ≠ .day → new = .closed) :
    Moves s (enterState r new s) := by
  unfold enterState
  dsimp only
  split
  · exact (moves_changeState r new s h).trans (moves_closeCheck r _)
  · exact moves_changeState r new s h

/-- A ride that is not CLOSED changes its state in moves. -/
theorem moves_enterState_of_ne {r : Nat} {s : State} {u : RideUnit} (new : RideState)
    (hu : s.units.find r = some u) (hc : u.state ≠ .closed) : Moves s (enterState r new s) :=
  moves_enterState r new s fun v hv hvc => by
    obtain rfl := Option.some.inj (hu.symm.trans hv)
    exact absurd hvc hc

/-- In DAY any ride changes its state in moves. -/
theorem moves_enterState_of_day (r : Nat) (new : RideState) {s : State} (hd : s.time.day = .day) :
    Moves s (enterState r new s) :=
  moves_enterState r new s fun _ _ _ hn => absurd hd hn

theorem moves_reportZero (r : Nat) (s : State) : Moves s (reportZero r s) := by
  unfold reportZero
  split
  · exact .refl
  · split
    · exact moves_closeCheck r s
    · exact .refl

/-! ### Day events of a ride -/

theorem moves_resolveWindow (r i : Nat) (s : State) (hd : s.time.day = .day) : Moves s (resolveWindow r i s) := by
  unfold resolveWindow
  split
  · exact .refl
  · split
    · exact .refl
    · exact (moves_settleWindow r i _ s hd).trans (moves_closeCheck r _)

theorem moves_resolveUpTo (r i : Nat) (s : State) (hd : s.time.day = .day) : Moves s (resolveUpTo r i s) :=
  moves_foldl_of (p := fun s => s.time.day = .day) (fun s j h => by simpa using h)
    (fun s j h => moves_resolveWindow r j s h) _ s hd

theorem moves_graceEnd (i r : Nat) (s : State) (hd : s.time.day = .day) : Moves s (graceEnd i r s) :=
  moves_then (moves_judgeBook _) ((moves_resolveUpTo r i s hd).trans (moves_judgeFlex r _))

theorem moves_openingEvent (r : Nat) (s : State) (hd : s.time.day = .day) : Moves s (openingEvent r s) := by
  unfold openingEvent
  split
  · exact .refl
  · split
    · exact moves_enterState_of_day r _ hd
    · exact .refl

theorem moves_parkCloseEvent (r : Nat) (s : State) : Moves s (parkCloseEvent r s) := by
  unfold parkCloseEvent
  split
  · exact .refl
  case h_2 u hu =>
    split
    case isTrue h => exact moves_enterState_of_ne _ hu (by rintro hc; simp [hc, RideState.isHeld] at h)
    case isFalse => exact .refl

/-! ### Tests, thresholds and timers -/

theorem moves_testCheck (r : Nat) (s : State) : Moves s (testCheck r s) := by
  unfold testCheck
  split
  · exact .refl
  case h_2 u hu =>
    split
    case isTrue h => exact moves_enterState_of_ne _ hu (by rintro hc; simp [RideUnit.testDone, hc, RideState.isTesting] at h)
    case isFalse => exact .refl

theorem moves_testMinute (r : Nat) (s : State) : Moves s (testMinute r s) := by
  unfold testMinute
  split
  · exact .refl
  · split
    · exact moves_then (moves_testCheck r _) (moves_modUnit_state s r _ (fun _ => rfl)
        fun _ h => { h with testMinutes := saturate_le _ _ })
    · exact .refl

theorem moves_takeHeldMinute (r : Nat) (s : State) : Moves s (takeHeldMinute r s) := by
  unfold takeHeldMinute
  split
  case h_1 u e hu he =>
    split
    case isTrue h => exact moves_enterState_of_ne _ hu (by rintro hc; simp [hc, RideState.isHeld] at h)
    case isFalse => exact .refl
  · exact .refl

/-- The units of a ride record are the same after two changes as after both at once. -/
theorem Table.update_update {α : Type} (t : Table α) (k : Nat) (f g : α → α) :
    (t.update k f).update k g = t.update k (g ∘ f) := by
  induction t with
  | nil => rfl
  | cons x t ih =>
    simp only [Table.update, ih]
    split <;> simp_all

theorem modUnit_modUnit (s : State) (r : Nat) (f g : RideUnit → RideUnit) :
    (s.modUnit r f).modUnit r g = s.modUnit r (g ∘ f) := by
  simp only [State.modUnit, Table.update_update]

/-- The change of state of a fault or clear threshold, in moves: neither acts on a CLOSED ride. -/
theorem moves_thresholdEnter {r : Nat} {u : RideUnit} {s : State} (new : RideState) (b : Bool)
    (hu : s.units.find r = some u) (hc : b = true → u.state ≠ .closed) :
    Moves s (if b then enterState r new s else s) := by
  split
  case isTrue h => exact moves_enterState_of_ne new hu (hc h)
  case isFalse => exact .refl

theorem moves_codeRiseCheck (r : Nat) (s : State) : Moves s (codeRiseCheck r s) := by
  unfold codeRiseCheck
  split
  · exact .refl
  case h_2 u hu =>
    split
    · dsimp only
      have hlevel : Moves s (reportLevel .code r true ((s.lastCode r).getD 0)
          (s.modUnit r fun u => { u with codeLevel := true })) :=
        moves_then (moves_reportLevel _ _ _ _ _)
          (moves_modUnit_state s r _ (fun _ => rfl) fun _ h => { h with })
      split
      case isTrue h =>
        refine hlevel.trans (moves_enterState_of_ne (u := { u with codeLevel := true }) _ (by simp [hu]) ?_)
        rintro hc
        simp [show u.state = .closed from hc, RideState.inService, RideState.isTesting] at h
      case isFalse => exact hlevel
    · exact .refl

/-- What a CODE level that falls does to the ride record itself. -/
def RideUnit.codeFalls (u : RideUnit) : RideUnit := { u with codeLevel := false, clear := 0 }

/-- The fall of a CODE level, once the clear timer has reached its persistence (R31). -/
def codeFall (r : Nat) (u : RideUnit) (s : State) : State :=
  if u.config.auto ∧ u.state.isDown then enterState r (.testing .fromDown) s else s

theorem codeFallCheck_eq {r : Nat} {s : State} {u : RideUnit} (hu : s.units.find r = some u) :
    codeFallCheck r s =
      if u.codeLevel = true ∧ u.config.clearPersist ≤ u.clear then
        codeFall r u (reportLevel .code r false ((s.lastCode r).getD 0) (s.modUnit r RideUnit.codeFalls))
      else s := by
  simp only [codeFallCheck, hu, codeFall]
  rfl

theorem moves_codeFall (r : Nat) (u : RideUnit) (d : Nat) (s : State) (hu : s.units.find r = some u) :
    Moves s (codeFall r u (reportLevel .code r false d (s.modUnit r RideUnit.codeFalls))) := by
  have hlevel : Moves s (reportLevel .code r false d (s.modUnit r RideUnit.codeFalls)) :=
    moves_then (moves_reportLevel _ _ _ _ _)
      (moves_modUnit_state s r _ (fun _ => rfl) fun _ h => { h with clear := Nat.zero_le _ })
  unfold codeFall
  split
  case isTrue h =>
    refine hlevel.trans (moves_enterState_of_ne (u := u.codeFalls) _ (by simp [hu]) ?_)
    rintro hc
    simp [show u.state = .closed from hc, RideState.isDown] at h
  case isFalse => exact hlevel

theorem moves_codeFallCheck (r : Nat) (s : State) : Moves s (codeFallCheck r s) := by
  match hu : s.units.find r with
  | none => simp only [codeFallCheck, hu]; exact .refl
  | some u =>
    rw [codeFallCheck_eq hu]
    split
    · exact moves_codeFall r u _ s hu
    · exact .refl

/-- One second of a clear timer, with the fall of the CODE level at its persistence: the timer is put to 0 there, so
that it never passes it. -/
theorem moves_clearSecond (r : Nat) {s : State} {u : RideUnit} (hu : s.units.find r = some u)
    (hl : u.codeLevel = true) :
    Moves s (codeFallCheck r (s.modUnit r fun u => { u with clear := u.clear + 1 })) := by
  have hfind : (s.modUnit r fun u => { u with clear := u.clear + 1 }).units.find r =
      some { u with clear := u.clear + 1 } := by simp [hu]
  rw [codeFallCheck_eq hfind]
  split
  case isTrue h =>
    rw [modUnit_modUnit]
    exact moves_codeFall r u _ s hu
  case isFalse h =>
    have hlt : u.clear + 1 < u.config.clearPersist := by
      by_contra hge
      exact h ⟨hl, not_lt.mp hge⟩
    refine moves_modUnit s r _ (fun _ _ hc _ => hc) fun _ v hv hr => { hr with clear := ?_ }
    obtain rfl := Option.some.inj (hu.symm.trans hv)
    have := hr.config.clearPersist.2
    dsimp only
    omega

theorem moves_stallCheck (r : Nat) (s : State) : Moves s (stallCheck r s) := by
  unfold stallCheck
  split
  · exact .refl
  case h_2 u hu =>
    split
    case isTrue h => exact moves_enterState_of_ne _ hu (by simp [h.1])
    case isFalse => exact .refl

theorem moves_persistSecond (r : Nat) (s : State) : Moves s (persistSecond r s) := by
  unfold persistSecond
  split
  case h_1 u code hu hcode =>
    split
    · refine moves_then (moves_codeRiseCheck r _) (moves_modUnit_state s r _ (fun _ => rfl)
        fun v h => { h with fault := ?_ })
      have := h.config.codePersist.2
      have := h.fault
      dsimp only
      split <;> omega
    · split
      case isTrue hl => exact moves_clearSecond r hu hl
      case isFalse => exact .refl
  · exact .refl

theorem moves_stallSecond (r : Nat) (s : State) : Moves s (stallSecond r s) := by
  unfold stallSecond
  split
  · exact .refl
  · split
    · exact moves_then (moves_stallCheck r _) (moves_modUnit_state s r _ (fun _ => rfl)
        fun _ h => { h with stall := saturate_le _ _ })
    · exact .refl

theorem moves_unitSecond (r : Nat) (s : State) : Moves s (unitSecond r s) := by
  unfold unitSecond
  split
  · exact (moves_persistSecond r s).trans (moves_stallSecond r _)
  · exact .refl

/-! ### Reports of the Field Poller -/

theorem takeCode_state (code : Nat) (u : RideUnit) : (u.takeCode code).state = u.state := by
  unfold RideUnit.takeCode
  split <;> rfl

theorem unitRange_takeCode {u : RideUnit} (code : Nat) (h : UnitRange u) : UnitRange (u.takeCode code) := by
  unfold RideUnit.takeCode
  split
  · exact { h with clear := Nat.zero_le _ }
  · exact { h with fault := Nat.zero_le _ }

theorem takeReport_state (code : Nat) (n : Option Nat) (u : RideUnit) : (u.takeReport code n).state = u.state := by
  cases n <;> exact takeCode_state code u

theorem unitRange_takeReport {u : RideUnit} (code : Nat) (n : Option Nat) (h : UnitRange u) :
    UnitRange (u.takeReport code n) := by
  have hcode := unitRange_takeCode code h
  cases n with
  | none => exact hcode
  | some d =>
    refine { hcode with stall := ?_, testDispatches := ?_ }
    · dsimp only [RideUnit.takeReport, RideUnit.takeDispatches]
      split
      · exact Nat.zero_le _
      · exact hcode.stall
    · dsimp only [RideUnit.takeReport, RideUnit.takeDispatches]
      split
      · exact saturate_le _ _
      · exact hcode.testDispatches

theorem moves_unitReport (r code : Nat) (n : Option Nat) (s : State) : Moves s (unitReport r code n s) := by
  have hmod : Moves s (s.modUnit r (RideUnit.takeReport code n)) :=
    moves_modUnit_state s r _ (takeReport_state code n) fun _ => unitRange_takeReport code n
  unfold unitReport
  dsimp only
  split
  · exact hmod
  case h_2 u hu =>
    split
    case isTrue h =>
      refine hmod.trans (moves_enterState_of_ne _ hu ?_)
      rintro hc
      simp [hc, RideState.stalled] at h
    case isFalse => exact hmod.trans (moves_testCheck r _)

theorem moves_unitLink (r : Nat) (new : Link) (s : State) : Moves s (unitLink r new s) := by
  unfold unitLink
  split
  · exact moves_modUnit_state s r _ (fun _ => rfl) fun _ h => { h with fault := Nat.zero_le _, clear := Nat.zero_le _ }
  · exact .refl

/-! ### The Field Poller -/

theorem moves_reportLost (r : Nat) (prev : Link) (misses : Nat) (s : State) : Moves s (reportLost r prev misses s) :=
  moves_then (moves_reportLevel _ _ _ _ _) ((moves_unitLink r .lost s).trans (moves_estimatorLink r prev .lost _))

theorem moves_takePollMiss (r : Nat) (s : State) : Moves s (takePollMiss r s) := by
  unfold takePollMiss
  split
  · exact .refl
  case h_2 f hf =>
    dsimp only
    have hmiss : Moves s (s.modField r fun x => { x with misses := saturate 255 (f.misses + 1) }) :=
      moves_modField s r _ fun _ _ h => { h with misses := saturate_le _ _ }
    split
    · exact moves_then (moves_reportLost r _ _ _)
        (moves_then (moves_modField _ r _ fun _ _ h => { h with }) hmiss)
    · exact hmiss

theorem moves_estimatorCounts (r : Nat) (d : Counters) (s : State) : Moves s (estimatorCounts r d s) := by
  unfold estimatorCounts
  split
  · exact .refl
  · exact moves_then (moves_reportZero r _)
      (moves_modEst s r _ fun _ _ => estimatorRange_takeCounts _ _ _ _)

theorem moves_unitReply (r : Nat) (prev : Link) (code : Nat) (k : ReplyKind) (s : State) :
    Moves s (unitReply r prev code k s) := by
  refine moves_then (moves_unitReport r code _ _) ?_
  split
  · exact .refl
  · exact moves_unitLink r .up s

theorem moves_estimatorReply (r : Nat) (prev : Link) (k : ReplyKind) (s : State) :
    Moves s (estimatorReply r prev k s) := by
  have hlink : Moves s (if prev = .up then s else estimatorLink r prev .up s) := by
    split
    · exact .refl
    · exact moves_estimatorLink r prev .up s
  cases k with
  | baselineOnly => exact hlink
  | counted d => exact hlink.trans (moves_estimatorCounts r d _)
  | implausible => exact hlink.trans (moves_modEst _ r _ fun _ _ h => { h with })

theorem moves_noticeReply (r : Nat) (f : FieldRecord) (k : ReplyKind) (s : State) :
    Moves s (noticeReply r f k s) := by
  have hlink : Moves s (if f.link = .lost then reportLevel .link r false (saturate 255 f.misses) s else s) := by
    split
    · exact moves_reportLevel _ _ _ _ s
    · exact .refl
  cases k with
  | implausible => exact hlink.trans (moves_reportEvent _ _ _ _)
  | baselineOnly => exact hlink
  | counted d => exact hlink

theorem moves_handOver (r : Nat) (prev : Link) (code : Nat) (k : ReplyKind) (s : State) :
    Moves s (handOver r prev code k s) := by
  unfold handOver
  dsimp only
  split
  · exact ((moves_takeHandover s).trans (moves_unitReply r prev code k _)).trans (moves_estimatorReply r prev k _)
  · exact ((moves_takeHandover s).trans (moves_estimatorReply r prev k _)).trans (moves_unitReply r prev code k _)

/-- A report whose fields are those of its bytes: a code of one byte and counters of two (R48). -/
structure Report.InRange (rep : Report) : Prop where
  code : rep.code ≤ 255
  entered : rep.counters.entered ≤ 65535
  standby : rep.counters.standby ≤ 65535
  ret : rep.counters.ret ≤ 65535
  dispatches : rep.counters.dispatches ≤ 65535

theorem replyKind_gap_le (k : ReplyKind) {old : Nat} (h : old ≤ 255) : k.gap old ≤ 255 := by
  cases k with
  | implausible => exact saturate_le _ _
  | baselineOnly => exact h
  | counted d => exact h

theorem moves_takeGoodReply (r : Nat) (rep : Report) (s : State) (hrep : rep.InRange) :
    Moves s (takeGoodReply r rep s) := by
  unfold takeGoodReply
  split
  · exact .refl
  · refine moves_then (moves_handOver _ _ _ _ _) (moves_then (moves_noticeReply _ _ _ _)
      (moves_modField s r _ fun _ x h => ?_))
    exact ⟨h.address, Nat.zero_le _, hrep.entered, hrep.standby, hrep.ret, hrep.dispatches,
      fun c hc => Option.some.inj hc ▸ hrep.code, replyKind_gap_le _ h.gap⟩

theorem moves_sendPoll (s : State) : Moves s (sendPoll s) := by
  unfold sendPoll
  split
  · exact .refl
  all_goals
    split
    · exact moves_poller s _ rfl
    · split
      · exact moves_poller s _ rfl
      · exact moves_poller s _ rfl

/-- The number that `n` bytes hold is below `256 ^ n`. -/
theorem getNum_lt (n acc v : Nat) (bs rest : List Byte) (h : getNum n acc bs = some (v, rest)) :
    v < (acc + 1) * 256 ^ n := by
  induction n generalizing acc bs with
  | zero =>
    simp only [getNum, Option.some.injEq, Prod.mk.injEq] at h
    omega
  | succ n ih =>
    cases bs with
    | nil => simp [getNum] at h
    | cons b bs =>
      have hlt := ih _ _ h
      have hb := b.isLt
      calc v < (acc * 256 + b.toNat + 1) * 256 ^ n := hlt
        _ ≤ ((acc + 1) * 256) * 256 ^ n := Nat.mul_le_mul_right _ (by omega)
        _ = (acc + 1) * 256 ^ (n + 1) := by rw [pow_succ]; ring

/-- The numbers of a run of fields are each in the range of their width. -/
theorem getNums_lt (ws vs : List Nat) (bs rest : List Byte) (h : getNums ws bs = some (vs, rest)) :
    List.Forall₂ (fun w v => v < 256 ^ w) ws vs := by
  induction ws generalizing bs vs with
  | nil =>
    simp only [getNums, Option.some.injEq, Prod.mk.injEq] at h
    rw [← h.1]
    exact .nil
  | cons w ws ih =>
    simp only [getNums, Option.bind_eq_some_iff, Option.map_eq_some_iff, Prod.mk.injEq] at h
    obtain ⟨⟨v, bs'⟩, hv, ⟨vs', rest'⟩, hvs, rfl, rfl⟩ := h
    exact .cons (by simpa using getNum_lt w 0 v bs bs' hv) (ih _ _ hvs)

theorem judgeReport_inRange {address : Nat} {bs : List Byte} {rep : Report}
    (h : judgeReport address bs = some rep) : rep.InRange := by
  unfold judgeReport at h
  split at h
  · split at h
    · split at h
      case h_1 start rest _ _ a code e st re di hn =>
        split at h
        · obtain rfl := Option.some.inj h
          have hlt := getNums_lt _ _ _ _ hn
          simp only [List.forall₂_cons, List.forall₂_nil_left_iff] at hlt
          obtain ⟨-, hcode, he, hst, hre, hdi, -⟩ := hlt
          exact ⟨by dsimp only; omega, by dsimp only; omega, by dsimp only; omega, by dsimp only; omega, by dsimp only; omega⟩
        · cases h
      · cases h
    · cases h
  · cases h

theorem moves_judgePoll (r address : Nat) (bytes : List Byte) (s : State) : Moves s (judgePoll r address bytes s) := by
  have hidle : Moves s { s with poller := { s.poller with line := .idle } } := moves_poller s _ rfl
  unfold judgePoll
  dsimp only
  split
  case h_1 rep hrep => exact hidle.trans (moves_takeGoodReply r rep _ (judgeReport_inRange hrep))
  case h_2 => exact hidle.trans (moves_takePollMiss r _)

theorem moves_takeFieldBytes (bytes : List Byte) (s : State) : Moves s (takeFieldBytes bytes s) := by
  unfold takeFieldBytes
  split
  · dsimp only
    split
    · exact moves_judgePoll _ _ _ s
    · exact moves_poller s _ rfl
  · exact .refl
  · exact .refl

theorem moves_closeFieldWindow (bytes : List Byte) (s : State) : Moves s (closeFieldWindow bytes s) := by
  unfold closeFieldWindow
  split
  · dsimp only
    split
    · exact moves_judgePoll _ _ _ s
    · exact moves_then (moves_takePollMiss _ _) (moves_poller s _ rfl)
  · exact moves_poller s _ rfl
  · exact .refl

theorem moves_abandonPoll (r : Nat) (s : State) : Moves s (abandonPoll r s) := by
  unfold abandonPoll
  split
  · split
    · exact moves_poller s _ rfl
    · exact .refl
  · exact .refl
  · exact .refl

/-! ### The Time Base -/

/-- A new record of the Time Base with the day state, the parameters and the pending OPENDAY of the old one. -/
theorem moves_time (s : State) (t : TimeBase) (hc : s.time.clock ≤ 86399 → t.clock ≤ 86399)
    (hd : t.day = s.time.day) (hp : t.params = s.time.params) (ho : t.pendingOpen = s.time.pendingOpen) :
    Moves s { s with time := t } :=
  (Move.time t ⟨hc, fun _ hn hs => absurd (hd.trans hs) hn, fun h => hp ▸ h, .inl ho⟩).moves

theorem moves_stepClock (s : State) : Moves s (stepClock s) := by
  refine moves_time s _ (fun _ => ?_) rfl rfl rfl
  dsimp only
  split
  case isTrue h => exact Nat.le_of_lt_succ h
  case isFalse => exact Nat.zero_le _

theorem moves_setClosePassed (s : State) : Moves s (setClosePassed s) := moves_time s _ id rfl rfl rfl

theorem moves_setMarks (rs : List Nat) (s : State) : Moves s (setMarks rs s) := moves_time s _ id rfl rfl rfl

theorem moves_takeDue (due : Nat → Bool) (s : State) : Moves s (takeDue due s).2 := moves_time s _ id rfl rfl rfl

theorem moves_deliver (forward : Bool) (s : State) : Moves s (deliver forward s).2 := by
  unfold deliver
  split
  · split
    · exact (moves_takeDue _ s).trans (moves_setMarks _ _)
    · exact .refl
  · exact .refl

/-- Day events and openings are delivered in DAY only (R15). -/
theorem deliver_day (forward : Bool) (s : State) :
    (deliver forward s).2.time.day = s.time.day ∧
    (s.time.day = .day ∨ ((deliver forward s).1.events = [] ∧ (deliver forward s).1.openings = [])) := by
  unfold deliver
  split
  · split
    case isTrue h => exact ⟨rfl, .inl h⟩
    case isFalse => exact ⟨rfl, .inr ⟨rfl, rfl⟩⟩
  · exact ⟨rfl, .inr ⟨rfl, rfl⟩⟩

theorem estimatorRange_minute {e : Estimator} (p : Params) (u : RideUnit) (linkUp forward : Bool)
    (h : EstimatorRange e) : EstimatorRange (e.minute p u linkUp forward) := by
  refine { h with s := ?_, sr := ?_, m := Nat.zero_le _, mr := Nat.zero_le _, heldMin := ?_ } <;>
    dsimp only [Estimator.minute] <;> split
  · exact saturate_le _ _
  · exact h.s
  · exact saturate_le _ _
  · exact h.sr
  · exact saturate_le _ _
  · exact h.heldMin

theorem moves_estimatorMinute (forward late : Bool) (r : Nat) (s : State) :
    Moves s (estimatorMinute forward late r s) := by
  have hheld : ∀ (b : Bool) (s : State), Moves s (if b then takeHeldMinute r s else s) := by
    intro b s
    split
    · exact moves_takeHeldMinute r s
    · exact .refl
  unfold estimatorMinute
  split
  · exact .refl
  case h_2 u hu =>
    have hmin : Moves s (s.modEst r (Estimator.minute s.time.params u (s.linkUp r) forward)) :=
      moves_modEst s r _ fun _ _ => estimatorRange_minute _ _ _ _
    have hfirst := hmin.trans (hheld (decide (u.state.isHeld ∧ ¬ late)) _)
    have hlast := (hfirst.trans ((moves_staleMinute r _).trans (moves_publishMinute r _))).trans
      (hheld (decide (u.state.isHeld ∧ late)) _)
    simpa only [decide_eq_true_eq] using hlast

theorem moves_bookEvent (r : Nat) (s : State) (e : DayEvent) (hd : s.time.day = .day) : Moves s (bookEvent r s e) := by
  cases e with
  | windowStart i => exact moves_windowStart i r s
  | graceEnd i => exact moves_graceEnd i r s hd
  | gridEnd => exact moves_endGrid r s
  | parkClose => exact .refl

theorem moves_bookEvents (r : Nat) (es : List DayEvent) (s : State) (hd : s.time.day = .day) :
    Moves s (es.foldl (bookEvent r) s) :=
  moves_foldl_of (p := fun s => s.time.day = .day) (fun s e h => by simpa using h) (fun s e => moves_bookEvent r s e)
    es s hd

/-- No taking of an advance changes the day state. -/
theorem take_day (d : Delivery) (s : State) (k : Taking) : (take d s k).time.day = s.time.day := by
  cases k <;> simp [take]

/-- A taking of an advance, in moves, where day events and openings are taken in DAY only. -/
theorem moves_take (d : Delivery) (s : State) (k : Taking) (hd : s.time.day = .day ∨ d.events = [])
    (ho : s.time.day = .day ∨ ∀ r, k ≠ .opening r) : Moves s (take d s k) := by
  cases k with
  | second r => exact moves_unitSecond r s
  | testMinute r => exact moves_testMinute r s
  | estimator r => exact moves_estimatorMinute _ _ r s
  | estimatorLate r => exact moves_estimatorMinute _ _ r s
  | overrides => exact moves_countOverrides s
  | windows r =>
    rcases hd with hd | hn
    · exact moves_bookEvents r _ s hd
    · simp only [take, hn, List.foldl_nil]
      exact .refl
  | lateReports => exact moves_takeLate _ s
  | closePassed => exact moves_setClosePassed s
  | parkClose r => exact (moves_setClosePassed s).trans (moves_parkCloseEvent r _)
  | opening r =>
    rcases ho with hday | hn
    · exact moves_openingEvent r s hday
    · exact absurd rfl (hn r)

/-- What is arranged is taken from what there was to do. -/
theorem mem_arrange {α : Type} (same : α → α → Bool) (wish todo : List α) (x : α)
    (h : x ∈ arrange same wish todo) : x ∈ todo ∨ ∃ y ∈ todo, same x y = true := by
  induction wish generalizing todo with
  | nil => exact .inl h
  | cons w ws ih =>
    unfold arrange at h
    split at h
    case isTrue hany =>
      rcases List.mem_cons.mp h with rfl | h
      · obtain ⟨y, hy, hs⟩ := List.any_eq_true.mp hany
        exact .inr ⟨y, hy, hs⟩
      · rcases ih _ h with hx | ⟨y, hy, hs⟩
        · exact .inl (List.mem_of_mem_filter hx)
        · exact .inr ⟨y, List.mem_of_mem_filter hy, hs⟩
    case isFalse => exact ih _ h

/-- An advance takes openings only where some are delivered. -/
theorem opening_not_mem_arrange (d : Delivery) (late : Bool) (rides : List Nat) (wish : List Taking)
    (h : d.openings = []) (r : Nat) : Taking.opening r ∉ arrange Taking.same wish (takings d late rides) := by
  intro hmem
  have hnot : Taking.opening r ∉ takings d late rides := by
    simp only [takings, h]
    cases late <;> cases d.minuteTick <;> cases d.events.isEmpty <;> cases d.events.contains .parkClose <;> simp
  rcases mem_arrange _ _ _ _ hmem with hx | ⟨y, hy, hs⟩
  · exact hnot hx
  · rw [taking_same, decide_eq_true_eq] at hs
    cases y <;> simp_all [plain]

theorem moves_foldl_take (d : Delivery) (order : List Taking) (s : State) (hd : s.time.day = .day ∨ d.events = [])
    (ho : s.time.day = .day ∨ ∀ k ∈ order, ∀ r, k ≠ .opening r) : Moves s (order.foldl (take d) s) := by
  induction order generalizing s with
  | nil => exact .refl
  | cons k ks ih =>
    refine (moves_take d s k hd (ho.imp_right fun h => h k List.mem_cons_self)).trans (ih (take d s k) ?_ ?_)
    · exact hd.imp_left fun h => (take_day d s k).trans h
    · exact ho.imp (fun h => (take_day d s k).trans h) fun h j hj => h j (List.mem_cons_of_mem k hj)

theorem moves_advance (forward : Bool) (s : State) : Moves s (advance forward s) := by
  obtain ⟨hday, hevents⟩ := deliver_day forward (stepClock s)
  unfold advance
  dsimp only
  refine moves_then (moves_foldl_take _ _ _ ?_ ?_)
    (((moves_stepClock s).trans (moves_deliver forward _)).trans (moves_takeTickOrder _))
  · rw [(takeTickOrder_keeps _).1, hday]
    exact hevents.imp_right And.left
  · rw [(takeTickOrder_keeps _).1, hday]
    exact hevents.imp_right fun h k hk r hr => opening_not_mem_arrange _ _ _ _ h.2 r (hr ▸ hk)

theorem moves_countReference (s : State) : Moves s (countReference s) :=
  moves_then (moves_composer { s with time := (countReference s).time } (countReference s).boards rfl)
    (moves_time s _ id rfl rfl rfl)

theorem moves_referenceSecond (s : State) : Moves s (referenceSecond s) := by
  unfold referenceSecond
  dsimp only
  split
  · exact moves_then (moves_time _ _ id rfl rfl rfl) (moves_countReference s)
  · split
    · exact moves_countReference s
    · exact (moves_countReference s).trans (moves_advance false _)

theorem moves_advances (n : Nat) (s : State) : Moves s (advances n s) := by
  induction n generalizing s with
  | zero => exact .refl
  | succ n ih => exact (moves_advance true s).trans (ih _)

end Sys2Proof.Machine
end

section
/-! The moves of the requests: the park day, the configuration of rides, passes, boards and notices. -/

namespace Sys2Proof.Machine

open Sys2Proof.Safety

/-! ### SETCLOCK, CONFPARK, OPENDAY, the end of the opening, CLOSEDAY -/

theorem moves_correct (x : Nat) (s t : State) (h : correct x s = some t) : Moves s t := by
  unfold correct at h
  split at h
  · obtain rfl := Option.some.inj h
    exact .refl
  · split at h
    · obtain rfl := Option.some.inj h
      exact (moves_clearEligible s).trans (moves_advances x _)
    · split at h
      · obtain rfl := Option.some.inj h
        exact moves_then (moves_time _ _ (by simp) (by simp) (by simp) (by simp)) (moves_clearEligible s)
      · cases h

theorem moves_serveSetclock (given : Nat) (s : State) : Moves s (serveSetclock given s).1 := by
  unfold serveSetclock
  dsimp only
  split
  · split
    · exact .refl
    · split
      case h_1 t ht => exact moves_correct _ s t ht
      case h_2 => exact .refl
  · refine moves_time s _ (fun _ => ?_) rfl rfl rfl
    exact saturate_le _ _

/-- `nearest` answers one of the values listed, if any is. -/
theorem nearest_mem (v : Nat) (xs : List Nat) (h : xs ≠ []) : nearest v xs ∈ xs := by
  induction xs with
  | nil => exact absurd rfl h
  | cons x xs ih =>
    cases xs with
    | nil => exact List.mem_singleton.mpr rfl
    | cons y ys =>
      unfold nearest
      split
      · exact List.mem_cons_self
      · exact List.mem_cons_of_mem _ (ih (by simp))

theorem clampTo_range {lo hi : Nat} (h : lo ≤ hi) (v : Nat) : lo ≤ clampTo lo hi v ∧ clampTo lo hi v ≤ hi := by
  rw [clampTo_eq_max_min lo hi v h]
  omega

theorem clampTo_le (hi v : Nat) : clampTo 0 hi v ≤ hi := (clampTo_range (Nat.zero_le hi) v).2

theorem fillTo_length {n : Nat} {t : Text} (h : t.length ≤ n) : (fillTo n t).length = n := by
  simp only [fillTo, List.length_append, List.length_replicate]
  omega

theorem printable_fillTo {n : Nat} {t : Text} (h : printable t = true) : printable (fillTo n t) = true := by
  simp only [printable, fillTo, List.all_append, Bool.and_eq_true]
  refine ⟨h, List.all_eq_true.mpr fun b hb => ?_⟩
  rw [List.eq_of_mem_replicate hb]
  decide

/-- What CONFPARK stores is in range, whatever is given with texts that fit (R13). -/
theorem storedParams_range {g : Params} (h : paramsWellFormed g = true) : ParamsRange (storedParams g) := by
  simp only [paramsWellFormed, lineText, Bool.and_eq_true, decide_eq_true_eq] at h
  obtain ⟨⟨⟨hp1, hl1⟩, ⟨hp2, hl2⟩⟩, ⟨hp3, hl3⟩⟩ := h
  have hstep : nearest g.step [1, 5, 10] ∈ [1, 5, 10] := nearest_mem _ _ (by simp)
  have hpost := clampTo_range (show 30 ≤ 240 by omega) g.postMax
  constructor
  case k => exact clampTo_range (by omega) _
  case l => exact nearest_mem _ _ (by simp)
  case step => exact hstep
  case postMax =>
    refine ⟨?_, (Nat.div_mul_le_self _ _).trans hpost.2, Nat.dvd_mul_left _ _⟩
    dsimp only [storedParams]
    generalize nearest g.step [1, 5, 10] = d at hstep
    simp only [List.mem_cons, List.not_mem_nil, or_false] at hstep
    rcases hstep with rfl | rfl | rfl <;> omega
  case hyst => exact clampTo_le _ _
  case jump => exact clampTo_le _ _
  case staleHold => exact clampTo_le _ _
  case silencePolls => exact clampTo_range (by omega) _
  case lead => exact clampTo_le _ _
  case gEarly => exact clampTo_le _ _
  case gLate => exact clampTo_le _ _
  case a => exact clampTo_range (by omega) _
  case d => exact clampTo_le _ _
  case slotLow => exact clampTo_le _ _
  case passInterval => exact clampTo_range (by omega) _
  case blinkPasses => exact clampTo_le _ _
  case blinkDuty => exact nearest_mem _ _ (by simp)
  case texts =>
    intro t ht
    simp only [List.mem_cons, List.not_mem_nil, or_false] at ht
    rcases ht with rfl | rfl | rfl
    · exact ⟨fillTo_length hl1, printable_fillTo hp1⟩
    · exact ⟨fillTo_length hl2, printable_fillTo hp2⟩
    · exact ⟨fillTo_length hl3, printable_fillTo hp3⟩

theorem moves_serveConfpark (g : Params) (s : State) : Moves s (serveConfpark g s).1 := by
  unfold serveConfpark
  split
  · exact .refl
  · split
    case isTrue h =>
      exact moves_timeMove s _ ⟨id, fun _ hn hs => absurd hs hn, fun _ => storedParams_range h, .inl rfl⟩
    case isFalse => exact .refl

theorem RideBook.sound_nil (b : RideBook) (h : b.windows = []) (hu : b.u = 0) : b.Sound := by
  refine ⟨by simp [h], ?_⟩
  rw [hu]
  exact Nat.zero_le _

theorem moves_emptyBook (s : State) : Moves s (emptyBook s) := by
  have hempty : Moves s { s with book :=
      { s.book with
        rides := s.book.rides.each fun _ b => { b with windows := [], f := 0, u := 0 }
        passes := [], retired := [], serial := 1, accounts := [], activeCount := 0 } } := by
    refine moves_bookMove _ _ ⟨fun h => by simpa using h.keyed, fun _ => List.Pairwise.nil, fun h x hx => ?_,
      fun _ _ x hx => (nomatch hx)⟩
    obtain ⟨y, -, -, hv⟩ := Table.mem_each _ _ _ hx
    rw [hv]
    exact RideBook.sound_nil _ rfl rfl
  unfold emptyBook
  dsimp only
  refine moves_then (moves_bookMove _ _ ⟨fun _ => List.Pairwise.nil, fun h => h.passes, fun _ x hx => (nomatch hx),
    fun h => h.passes⟩) ((hempty.trans ?_).trans (moves_judgeBook _))
  exact moves_foldl (fun s r => (moves_judgeFlex r s).trans (moves_judgeSlots r _)) _ _

theorem emptyBook_time (s : State) : (emptyBook s).time = s.time := by
  unfold emptyBook
  dsimp only
  rw [(judgeBook_keeps _).1]
  exact foldl_keeps (fun s => s.time) _ (fun s r => by simp) _ _

/-- OPENDAY is taken outside DAY, while no reply waits for a place (R6, R173). -/
theorem moves_takeOpenday (tag : Nat) (o : Code) (plan : Plan) (s : State) (hd : s.time.day ≠ .day)
    (hw : s.port.waiting = []) : Moves s (takeOpenday tag o plan s) := by
  refine moves_then (moves_timeMove _ _ ⟨id, fun _ _ hn => ?_, id, .inr ?_⟩) (moves_emptyBook s)
  · rw [emptyBook_time] at hn
    exact absurd hn hd
  · exact (moves_emptyBook s).waiting_nil hw

theorem moves_serveOpenday (tag o c : Nat) (s : State) (hw : s.port.waiting = []) :
    Moves s (serveOpenday tag o c s).1 := by
  unfold serveOpenday
  split
  · exact .refl
  case isFalse hd =>
    split
    · exact .refl
    · dsimp only
      split
      · exact .refl
      · exact moves_takeOpenday _ _ _ s (fun h => hd (.inl h)) hw

theorem estimatorRange_opened {e : Estimator} {c p : Nat} (h : EstimatorRange e) (hc : c ≤ 9999) (hp : p ≤ 12) :
    EstimatorRange (e.opened c p) := by
  have hs : c * (16 - p) / 120 ≤ Config.rateMax := by
    have : c * (16 - p) ≤ 9999 * 16 := Nat.mul_le_mul hc (Nat.sub_le _ _)
    have : c * (16 - p) / 120 ≤ 9999 * 16 / 120 := Nat.div_le_div_right this
    exact this.trans (by decide)
  have hsr : c * p / 120 ≤ Config.rateMax := by
    have : c * p ≤ 9999 * 12 := Nat.mul_le_mul hc hp
    have : c * p / 120 ≤ 9999 * 12 / 120 := Nat.div_le_div_right this
    exact this.trans (by decide)
  exact ⟨Nat.zero_le _, hs, hsr, Nat.zero_le _, Nat.zero_le _, Nat.zero_le _, h.staleTimer, Nat.zero_le _,
    Nat.zero_le _, fun _ hw => nomatch hw⟩

/-- The opened state in the order of its moves: the day, the windows, the estimators, the ride records. -/
theorem moves_openedState (plan : Plan) (s : State) : Moves s (openedState plan s) := by
  have hest : Moves s { s with ests := openEstimators s.units s.ests } := by
    refine Move.moves (Move.ests _ fun h x hx => ?_)
    obtain ⟨y, hy, -, hv⟩ := Table.mem_each _ _ _ hx
    rw [hv]
    split
    case h_1 u hu =>
      have hr := (h.units _ (Table.mem_of_find _ _ _ hu)).config
      exact estimatorRange_opened (h.ests y hy) hr.c hr.p
    case h_2 => exact h.ests y hy
  have hbook : Moves { s with ests := openEstimators s.units s.ests }
      { s with
        ests := openEstimators s.units s.ests
        book := { s.book with
          rides := s.units.each fun _ u => { windows := buildWindows plan s.time.params.gLate u }
          serial := 1 } } := by
    refine moves_bookMove _ _ ⟨fun h => by simpa using h.units, fun h => h.passes, fun _ x hx => ?_,
      fun h => h.passes⟩
    obtain ⟨y, -, -, hv⟩ := Table.mem_each _ _ _ hx
    rw [hv]
    refine ⟨fun w hw => ?_, Nat.zero_le _⟩
    simp only [buildWindows, List.mem_map] at hw
    obtain ⟨i, -, rfl⟩ := hw
    exact Nat.zero_le _
  have hunits := hest.trans (hbook.trans (Move.moves (Move.units (s.units.each fun _ u => u.opened s.clockNow)
    ⟨fun h => by simpa using h, fun h hd x hx => by
      obtain ⟨y, hy, -, hv⟩ := Table.mem_each _ _ _ hx
      rw [hv]
      exact h.rides hd y hy, fun h x hx => by
      obtain ⟨y, hy, hk, hv⟩ := Table.mem_each _ _ _ hx
      rw [hv, ← hk]
      exact ⟨h.rides y hy, { h.units y hy with
        since := clockNow_le h.clock, stall := Nat.zero_le _, testDispatches := Nat.zero_le _,
        testMinutes := Nat.zero_le _ }⟩⟩)))
  exact hunits.trans (moves_timeMove _ _ ⟨id, fun _ hn => absurd rfl hn, id, .inl rfl⟩)

/-- A day event that is due when the opening ends is taken in DAY. -/
theorem moves_deliverDue (s : State) (e : DayEvent) (hd : s.time.day = .day) : Moves s (deliverDue s e) := by
  have hall : ∀ e, Moves s (s.rides.foldl (fun s r => bookEvent r s e) s) := fun e =>
    moves_foldl_of (p := fun s => s.time.day = .day) (fun s r h => by simpa using h)
      (fun s r h => moves_bookEvent r s e h) _ s hd
  cases e with
  | parkClose => exact (moves_setClosePassed s).trans (moves_foldl (fun s r => moves_parkCloseEvent r s) _ _)
  | windowStart i => exact hall _
  | graceEnd i => exact hall _
  | gridEnd => exact hall _

/-- The day events due at the opening leave the day state alone. -/
theorem deliverDue_day (s : State) (e : DayEvent) : (deliverDue s e).time.day = s.time.day := by
  have hall : ∀ e, (s.rides.foldl (fun s r => bookEvent r s e) s).time.day = s.time.day := fun e =>
    foldl_keeps (fun s => s.time.day) _ (fun s r => by simp) _ _
  cases e with
  | parkClose => exact foldl_keeps (fun s => s.time.day) _ (fun s r => by simp) _ (setClosePassed s)
  | windowStart i => exact hall _
  | graceEnd i => exact hall _
  | gridEnd => exact hall _

theorem moves_deliverDueEvents (s : State) (hd : s.time.day = .day) : Moves s (deliverDueEvents s) :=
  (moves_takeDue _ s).trans (moves_foldl_of (p := fun s => s.time.day = .day)
    (fun s e h => (deliverDue_day s e).trans h) (fun s e h => moves_deliverDue s e h) _ _ hd)

/-! ### CLOSEDAY -/

theorem retirePass_passes (n : Nat) (st : PassState) (s : State) :
    (retirePass n st s).book.passes =
      s.book.passes.update n fun p => { p with state := st, retiredAt := some s.minute } := by
  unfold retirePass
  split
  case h_1 h => exact (update_of_find_none _ _ _ h).symm
  case h_2 => rfl

theorem moves_expireAll (s : State) : Moves s (expireAll s) := by
  unfold expireAll
  dsimp only
  refine moves_then (moves_book _ _ rfl rfl) (moves_foldl (fun s n => moves_retirePass n .expired s ⟨nofun, nofun⟩) _ s)

/-- Passes retired one after the other: each pass of the list is retired, the others stay. -/
theorem foldl_retirePass_mem (st : PassState) (ns : List Nat) (s : State) (x : Nat × Pass)
    (hx : x ∈ (ns.foldl (fun s n => retirePass n st s) s).book.passes) :
    (x.1 ∈ ns ∧ x.2.state = st) ∨ x ∈ s.book.passes := by
  induction ns generalizing s with
  | nil => exact .inr hx
  | cons n ns ih =>
    rcases ih (retirePass n st s) hx with ⟨hmem, hst⟩ | hx
    · exact .inl ⟨List.mem_cons_of_mem _ hmem, hst⟩
    · rw [retirePass_passes] at hx
      obtain ⟨y, hy, hk, hv⟩ := Table.mem_update _ _ _ _ hx
      split at hv
      case isTrue heq => exact .inl ⟨by simp [← hk, heq], by rw [hv]⟩
      case isFalse => exact .inr (by rwa [show x = y from Prod.ext hk.symm hv])

/-- Once retired, a pass of the list stays retired. -/
theorem foldl_retirePass_retired (st : PassState) (ns : List Nat) (s : State) (x : Nat × Pass) (hn : x.1 ∈ ns)
    (hx : x ∈ (ns.foldl (fun s n => retirePass n st s) s).book.passes) : x.2.state = st := by
  induction ns generalizing s with
  | nil => cases hn
  | cons n ns ih =>
    by_cases hmem : x.1 ∈ ns
    · exact ih _ hmem hx
    · rcases foldl_retirePass_mem st ns (retirePass n st s) x hx with ⟨h, -⟩ | hx
      · exact absurd h hmem
      · obtain rfl := (List.mem_cons.mp hn).resolve_right hmem
        rw [retirePass_passes] at hx
        obtain ⟨y, -, hk, hv⟩ := Table.mem_update _ _ _ _ hx
        rw [hv, if_pos hk]

/-- After the expiry of the active passes none is active (R11, R27). -/
theorem expireAll_inactive (s : State) : ∀ x ∈ (expireAll s).book.passes, x.2.Inactive := by
  intro x hx
  rcases foldl_retirePass_mem .expired _ s x hx with ⟨-, hst⟩ | hmem
  · exact ⟨by simp [hst], by simp [hst]⟩
  · by_cases hactive : x.2.state = .issued ∨ x.2.state = .flex
    · have hkey : x.1 ∈ Table.keys (s.book.passes.filter fun np => np.2.state = .issued || np.2.state = .flex) :=
        Table.key_mem _ x (List.mem_filter.mpr ⟨hmem, by simpa using hactive⟩)
      have hst := foldl_retirePass_retired .expired _ s x hkey hx
      exact ⟨by simp [hst], by simp [hst]⟩
    · exact not_or.mp hactive

theorem moves_resolveAll (s : State) : Moves s (resolveAll s) := by
  unfold resolveAll
  dsimp only
  refine moves_then (moves_foldl (fun s r => moves_judgeFlex r s) _ _) (moves_bookMove _ _
    ⟨fun h => by simpa using h.keyed, fun h => h.passes, fun h x hx => ?_, fun h => h.passes⟩)
  obtain ⟨y, hy, -, hv⟩ := Table.mem_each _ _ _ hx
  rw [hv]
  refine ⟨fun w hw => ?_, le_rfl⟩
  obtain ⟨w', hw', rfl⟩ := List.mem_map.mp hw
  have := (bookInv_sound h y hy).1 w' hw'
  simp only [Window.settle]
  omega

/-- What the end of the day does to the counters of a ride record (R27). -/
theorem moves_closeRide (r : Nat) (s : State) : Moves s (closeRide r s) :=
  moves_then (moves_modUnit_state _ r _ (fun _ => rfl) fun _ h =>
    { h with stall := Nat.zero_le _, testDispatches := Nat.zero_le _, testMinutes := Nat.zero_le _ })
    (moves_enterState r .closed s fun _ _ _ _ => rfl)

theorem moves_closeRideAtDayEnd (s : State) (r : Nat) : Moves s (closeRideAtDayEnd s r) := by
  unfold closeRideAtDayEnd
  split
  · exact .refl
  · split
    · exact moves_modUnit_state s r _ (fun _ => rfl) fun _ h => { h with stall := Nat.zero_le _ }
    · exact moves_closeRide r s

theorem enterState_closed_units (r : Nat) (s : State) :
    (enterState r .closed s).units = s.units.update r (RideUnit.enter .closed s.clockNow) := by
  simp [enterState]

/-- At the end of the day a ride record is the same as before or CLOSED, and is CLOSED if it is the ride's own. -/
theorem closeRideAtDayEnd_mem (s : State) (r : Nat) (hwf : s.units.wf) (x : Nat × RideUnit)
    (hx : x ∈ (closeRideAtDayEnd s r).units) : x.2.state = .closed ∨ (x.1 ≠ r ∧ x ∈ s.units) := by
  unfold closeRideAtDayEnd at hx
  split at hx
  case h_1 hnone =>
    refine .inr ⟨fun hk => ?_, hx⟩
    rw [← hk, Table.find_of_mem _ hwf x hx] at hnone
    cases hnone
  case h_2 u hu =>
    split at hx
    case isTrue hc =>
      obtain ⟨y, hy, hk, hv⟩ := Table.mem_update _ _ _ _ hx
      split at hv
      case isTrue heq =>
        have hyu := Table.find_of_mem _ hwf y hy
        rw [heq, hu] at hyu
        rw [hv, ← Option.some.inj hyu]
        exact .inl hc
      case isFalse hne => exact .inr ⟨hk ▸ hne, by rwa [show x = y from Prod.ext hk.symm hv]⟩
    case isFalse =>
      obtain ⟨y, hy, hk, hv⟩ := Table.mem_update _ _ _ _ hx
      rw [enterState_closed_units] at hy
      obtain ⟨z, hz, hzk, hzv⟩ := Table.mem_update _ _ _ _ hy
      by_cases heq : y.1 = r
      · rw [if_pos heq] at hv
        rw [if_pos (hzk.trans heq)] at hzv
        rw [hv, hzv]
        exact .inl rfl
      · rw [if_neg heq] at hv
        rw [if_neg (hzk ▸ heq)] at hzv
        have hxz : x = z := Prod.ext (hk.symm.trans hzk.symm) (hv.trans hzv)
        exact .inr ⟨hk ▸ heq, hxz ▸ hz⟩

theorem closeRideAtDayEnd_keys (s : State) (r : Nat) : (closeRideAtDayEnd s r).units.keys = s.units.keys := by
  unfold closeRideAtDayEnd
  split
  · rfl
  · split
    · simp
    · simp [closeRide, enterState_closed_units]

/-- A ride whose record is closed at the end of the day stays CLOSED while the other rides are closed. -/
theorem foldl_closeRideAtDayEnd_closed (rs : List Nat) (s : State) (hwf : s.units.wf) (x : Nat × RideUnit)
    (hx : x ∈ (rs.foldl closeRideAtDayEnd s).units) : x.2.state = .closed ∨ (x.1 ∉ rs ∧ x ∈ s.units) := by
  induction rs generalizing s with
  | nil => exact .inr ⟨by simp, hx⟩
  | cons r rs ih =>
    have hwf' : (closeRideAtDayEnd s r).units.wf := by
      unfold Table.wf
      rw [closeRideAtDayEnd_keys]
      exact hwf
    rcases ih _ hwf' hx with hc | ⟨hn, hx⟩
    · exact .inl hc
    · rcases closeRideAtDayEnd_mem s r hwf x hx with hc | ⟨hne, hx⟩
      · exact .inl hc
      · exact .inr ⟨by simp [hne, hn], hx⟩

theorem closeRideAtDayEnd_keeps (s : State) (r : Nat) :
    (closeRideAtDayEnd s r).time = s.time ∧ (closeRideAtDayEnd s r).book.passes = s.book.passes := by
  unfold closeRideAtDayEnd
  split
  · exact ⟨rfl, rfl⟩
  · split
    · exact ⟨rfl, rfl⟩
    · simp [closeRide]

theorem resolveAll_passes (s : State) : (resolveAll s).book.passes = s.book.passes := by
  unfold resolveAll
  dsimp only
  exact foldl_keeps (fun s => s.book.passes) _ (fun s r => by simp) _ _

/-- The state CLOSEDAY reaches before it leaves DAY (R11). -/
def dayEnded (s : State) : State :=
  let s := { s with time := { s.time with schedule := [], position := 0 } }
  let s := takeLate (fun _ => true) (resolveAll (expireAll s))
  s.rides.foldl closeRideAtDayEnd s

theorem takeCloseday_eq (s : State) :
    takeCloseday s = judgeBook { dayEnded s with time := { (dayEnded s).time with day := .after } } := rfl

theorem moves_dayEnded (s : State) : Moves s (dayEnded s) :=
  moves_then (moves_foldl moves_closeRideAtDayEnd _ _) (moves_then (moves_takeLate _ _)
    (moves_then (moves_resolveAll _) (moves_then (moves_expireAll _) (moves_time s _ id rfl rfl rfl))))

/-- At the end of the day every ride is CLOSED and no pass is active (R5, R11). -/
theorem dayEnded_atRest (s : State) (h : (dayEnded s).units.wf) : (dayEnded s).AtRest := by
  unfold dayEnded at h ⊢
  dsimp only at h ⊢
  generalize hb : ({ s with time := { s.time with schedule := [], position := 0 } } : State) = s0 at h ⊢
  generalize hs1 : takeLate (fun _ => true) (resolveAll (expireAll s0)) = s1 at h ⊢
  constructor
  · have hkeys : ∀ (rs : List Nat) (s : State), (rs.foldl closeRideAtDayEnd s).units.keys = s.units.keys :=
      fun rs s => foldl_keeps (fun s => s.units.keys) _ closeRideAtDayEnd_keys rs s
    have hwf : s1.units.wf := by
      unfold Table.wf at h ⊢
      rwa [hkeys] at h
    intro x hx
    rcases foldl_closeRideAtDayEnd_closed _ s1 hwf x hx with hc | ⟨hn, hx⟩
    · exact hc
    · exact absurd (Table.key_mem _ x hx) hn
  · have hpasses : (s1.rides.foldl closeRideAtDayEnd s1).book.passes = (expireAll s0).book.passes := by
      rw [foldl_keeps (fun s => s.book.passes) _ fun s r => (closeRideAtDayEnd_keeps s r).2, ← hs1]
      simp [resolveAll_passes]
    rw [hpasses]
    exact expireAll_inactive s0

theorem moves_takeCloseday (s : State) : Moves s (takeCloseday s) := by
  rw [takeCloseday_eq]
  refine moves_then (moves_judgeBook _) (moves_then (moves_timeMove _ _ ⟨id, fun h _ _ => ?_, id, .inl rfl⟩)
    (moves_dayEnded s))
  exact dayEnded_atRest s h.keyed

/-! ### The configuration of rides -/

/-- The fields of a CONFRIDE that a frame can carry and that no check refuses. -/
structure FieldsSound (f : RideFields) : Prop where
  fullName : ∀ t, f.fullName = some t → fullNameText t = true
  shortName : ∀ t, f.shortName = some (some t) → shortNameText t = true ∧ t ≠ []
  fieldAddress : ∀ a, f.fieldAddress = some a → 1 ≤ a ∧ a ≤ 254

theorem rideFields_sound {s : State} {r : Nat} {f : RideFields} (hf : f.fitsFrame = true)
    (hm : s.fieldsMalformed r f = false) : FieldsSound f := by
  simp only [RideFields.fitsFrame, Bool.and_eq_true] at hf
  simp only [State.fieldsMalformed, Bool.or_eq_false_iff] at hm
  obtain ⟨⟨⟨⟨-, hshort⟩, -⟩, haddr⟩, -⟩ := hf
  obtain ⟨⟨hname', hshort'⟩, haddr'⟩ := hm
  constructor
  · intro t ht
    simpa [ht] using hname'
  · intro t ht
    rw [ht] at hshort hshort'
    simp only [Bool.and_eq_true, Bool.not_eq_true', List.isEmpty_eq_false_iff] at hshort
    exact ⟨by simpa using hshort', hshort.2⟩
  · intro a ha
    rw [ha] at haddr haddr'
    simp only [fitsOpt, fits, pow_one, decide_eq_true_eq] at haddr
    simp only [Bool.or_eq_false_iff, decide_eq_false_iff_not] at haddr'
    omega

/-- A value of a configuration field after CONFRIDE: the old one in range, or the clamped new one. -/
theorem clamped_range {lo hi : Nat} (h : lo ≤ hi) (given : Option Nat) {old : Nat} (hold : lo ≤ old ∧ old ≤ hi) :
    lo ≤ (given.map (clampTo lo hi)).getD old ∧ (given.map (clampTo lo hi)).getD old ≤ hi := by
  cases given with
  | none => exact hold
  | some v => exact clampTo_range h v

/-- What CONFRIDE stores is in range, whatever fields are given (R19, R21). -/
theorem configRange_store {f : RideFields} {c : RideConfig} (hf : FieldsSound f) (h : ConfigRange c) :
    ConfigRange (c.store (clampFields f)) := by
  constructor
  case fullName =>
    dsimp only [RideConfig.store, clampFields]
    cases hn : f.fullName with
    | none => exact h.fullName
    | some t => exact hf.fullName t hn
  case shortName =>
    intro t ht
    dsimp only [RideConfig.store, clampFields] at ht
    cases hn : f.shortName with
    | none => exact h.shortName t (by simpa [hn] using ht)
    | some o => exact hf.shortName t (by rw [hn]; simpa [hn] using ht)
  case fieldAddress =>
    dsimp only [RideConfig.store, clampFields]
    cases hn : f.fieldAddress with
    | none => exact h.fieldAddress
    | some a => exact hf.fieldAddress a hn
  case c => exact (clamped_range (Nat.zero_le _) f.c ⟨Nat.zero_le _, h.c⟩).2
  case p => exact (clamped_range (Nat.zero_le _) f.p ⟨Nat.zero_le _, h.p⟩).2
  case walk => exact (clamped_range (Nat.zero_le _) f.walk ⟨Nat.zero_le _, h.walk⟩).2
  case opensAt =>
    intro m hm
    dsimp only [RideConfig.store, clampFields] at hm
    match hn : f.opensAt with
    | none => exact h.opensAt m (by simpa [hn] using hm)
    | some none => simp [hn] at hm
    | some (some v) =>
      rw [hn] at hm
      obtain rfl : clampTo 0 1439 v = m := by simpa using hm
      exact (clampTo_range (by omega) v).2
  case codePersist => exact clamped_range (by omega) f.codePersist h.codePersist
  case clearPersist => exact clamped_range (by omega) f.clearPersist h.clearPersist
  case stallTime => exact clamped_range (by omega) f.stallTime h.stallTime
  case downAfter => exact clamped_range (by omega) f.downAfter h.downAfter
  case testDispatches => exact (clamped_range (Nat.zero_le _) f.testDispatches ⟨Nat.zero_le _, h.testDispatches⟩).2
  case testMinutes => exact (clamped_range (Nat.zero_le _) f.testMinutes ⟨Nat.zero_le _, h.testMinutes⟩).2

/-- The configuration of a ride that is created: the defaults of the fields that are not given, the name and the field
address that are (R21). -/
theorem configRange_create {f : RideFields} {name : Text} {address : Nat} (hf : FieldsSound f)
    (hn : f.fullName = some name) (ha : f.fieldAddress = some address) :
    ConfigRange (RideConfig.default.store (clampFields f)) := by
  have hbase : ConfigRange { RideConfig.default with fullName := name, fieldAddress := address } := by
    refine { fullName := hf.fullName name hn, shortName := ?_, fieldAddress := hf.fieldAddress address ha, c := ?_, p := ?_,
             walk := ?_, opensAt := ?_, codePersist := ?_, clearPersist := ?_, stallTime := ?_, downAfter := ?_,
             testDispatches := ?_, testMinutes := ?_ } <;> simp [RideConfig.default]
  have hstore : RideConfig.default.store (clampFields f) =
      RideConfig.store (clampFields f) { RideConfig.default with fullName := name, fieldAddress := address } := by
    simp [RideConfig.store, clampFields, hn, ha]
  rw [hstore]
  exact configRange_store hf hbase

theorem unitRange_fresh {c : RideConfig} {since : Option Nat} (hc : ConfigRange c)
    (hs : ∀ t, since = some t → t ≤ 86399) : UnitRange (RideUnit.fresh c since) :=
  ⟨hc, hs, Nat.zero_le _, Nat.zero_le _, Nat.zero_le _, Nat.zero_le _, Nat.zero_le _⟩

theorem fieldRange_fresh {a : Nat} (ha : 1 ≤ a ∧ a ≤ 254) : FieldRange (FieldRecord.fresh a) :=
  ⟨ha, Nat.zero_le _, Nat.zero_le _, Nat.zero_le _, Nat.zero_le _, Nat.zero_le _, fun _ h => (nomatch h), Nat.zero_le _⟩

theorem estimatorRange_fresh {c p : Nat} (hc : c ≤ 9999) (hp : p ≤ 12) : EstimatorRange (Estimator.fresh c p) := by
  have hblank : EstimatorRange
      { q := 0, s := 0, sr := 0, m := 0, mr := 0, eligible := false, heldMin := 0, staleTimer := 0, stale := false,
        renew := false, wr := 0, wt := 0, wait := none } :=
    ⟨by simp, by simp, by simp, by simp, by simp, by simp, by simp, by simp, by simp, by simp⟩
  exact estimatorRange_opened hblank hc hp

theorem moves_createRide (r : Nat) (c : RideConfig) (s : State) (hr : 1 ≤ r ∧ r ≤ 48) (hc : ConfigRange c) :
    Moves s (createRide r c s) := by
  have hbook : Moves s { s with book := { s.book with rides := s.book.rides.remove r } } :=
    moves_bookMove _ _ ⟨fun h => Table.wf_remove _ _ h.keyed, fun h => h.passes,
      fun h x hx => bookInv_sound h x (Table.mem_remove _ _ _ hx), fun h => h.passes⟩
  have hest := hbook.trans (Move.moves (Move.ests (s.ests.put r (Estimator.fresh c.c c.p)) fun h x hx => by
    rcases Table.mem_put _ _ _ _ hx with rfl | hx
    · exact estimatorRange_fresh hc.c hc.p
    · exact h.ests x hx))
  have hfield := hest.trans (Move.moves (Move.poller
    { s.poller with records := s.poller.records.put r (FieldRecord.fresh c.fieldAddress) } fun h x hx => by
      rcases Table.mem_put _ _ _ _ hx with rfl | hx
      · exact fieldRange_fresh hc.fieldAddress
      · exact h.fields x hx))
  refine moves_then (Move.moves (Move.units _ ⟨fun h => Table.wf_put _ _ _ h, fun h hd x hx => ?_, fun h x hx => ?_⟩))
    hfield
  · rcases Table.mem_put _ _ _ _ hx with rfl | hx
    · rfl
    · exact h.rides hd x hx
  · rcases Table.mem_put _ _ _ _ hx with rfl | hx
    · exact ⟨hr, unitRange_fresh hc (clockNow_le h.clock)⟩
    · exact ⟨h.rides x hx, h.units x hx⟩

theorem setCap_sound (v : Nat) (w : Window) : (w.setCap v).issued + (w.setCap v).hold ≤ (w.setCap v).cap :=
  Nat.le_max_right _ _

theorem moves_recomputeCaps (r : Nat) (c : RideConfig) (s : State) : Moves s (recomputeCaps r c s) := by
  refine moves_then (moves_judgeSlots r _) (moves_then (moves_judgeFlex r _) (moves_then (moves_place r _)
    (moves_modBook s r _ fun b _ hb => hb.map fun w hw => ?_)))
  unfold Window.recompute
  split
  · exact hw
  · exact setCap_sound _ w

theorem moves_changeAddress (r a : Nat) (s : State) (ha : 1 ≤ a ∧ a ≤ 254) : Moves s (changeAddress r a s) :=
  moves_then (moves_abandonPoll r _) (moves_modField s r _ fun _ _ h => { h with address := ha, misses := Nat.zero_le _ })

theorem moves_updateRide (r : Nat) (u : RideUnit) (new : RideConfig) (s : State) (hu : s.units.find r = some u)
    (hc : ConfigRange u.config → ConfigRange new) (ha : new.fieldAddress = u.config.fieldAddress ∨
      (1 ≤ new.fieldAddress ∧ new.fieldAddress ≤ 254)) : Moves s (updateRide r u.config new s).1 := by
  have hconfig : Moves s (s.modUnit r fun u => { u with config := new }) :=
    moves_modUnit s r _ (fun _ _ h _ => h) fun _ v hv h => by
      obtain rfl := Option.some.inj (hu.symm.trans hv)
      exact { h with config := hc h.config }
  have haddr : ∀ s : State, Moves s
      (if new.fieldAddress = u.config.fieldAddress then s else changeAddress r new.fieldAddress s) := by
    intro s
    split
    · exact .refl
    case isFalse hne => exact moves_changeAddress r _ s (ha.resolve_left hne)
  have hboth := moves_then (haddr _) hconfig
  unfold updateRide
  dsimp only
  generalize (if new.fieldAddress = u.config.fieldAddress then s.modUnit r fun u => { u with config := new }
    else changeAddress r new.fieldAddress (s.modUnit r fun u => { u with config := new })) = s' at hboth ⊢
  split
  · exact hboth.trans (moves_recomputeCaps r new s')
  · exact hboth

theorem rideInRange_iff (r : Nat) : rideInRange r = true ↔ 1 ≤ r ∧ r ≤ 48 := by
  unfold rideInRange Config.rides
  simp

/-- What it means that no check refuses a CONFRIDE that stores (R20). -/
theorem confrideRefusal_none {s : State} {r : Nat} {remove : Bool} {f : RideFields} {bad : Bool}
    (h : s.confrideRefusal r remove f bad = none) :
    (1 ≤ r ∧ r ≤ 48) ∧ bad = false ∧ s.fieldsMalformed r f = false ∧ (remove = true → f = {}) ∧
    (s.units.find r = none → remove = false ∧ f.fullName.isSome = true ∧ f.fieldAddress.isSome = true) := by
  unfold State.confrideRefusal at h
  split at h
  · cases h
  · split at h
    · cases h
    case isFalse hr =>
      have hr := (rideInRange_iff r).mp (by simpa using hr)
      split at h
      · cases h
      case isFalse hm =>
        simp only [Bool.or_eq_true, Bool.and_eq_true, not_or, not_and, Bool.not_eq_true, ne_eq,
          decide_not, Bool.not_eq_true', decide_eq_false_iff_not, not_not] at hm
        obtain ⟨⟨hbad, hremove⟩, hfields⟩ := hm
        refine ⟨hr, hbad, hfields, hremove, fun hnone => ?_⟩
        rw [hnone] at h
        dsimp only at h
        split at h
        · cases h
        case isFalse hgiven =>
          simpa [Option.isNone_iff_eq_none, Option.isSome_iff_ne_none, and_assoc] using hgiven

theorem moves_storeRide (r : Nat) (f : RideFields) (s : State) (hr : 1 ≤ r ∧ r ≤ 48) (hf : FieldsSound f)
    (hnew : s.units.find r = none → f.fullName.isSome = true ∧ f.fieldAddress.isSome = true) :
    Moves s (storeRide r f s).1 := by
  unfold storeRide
  dsimp only
  split
  case h_1 hnone =>
    obtain ⟨hname, haddr⟩ := hnew hnone
    obtain ⟨name, hname⟩ := Option.isSome_iff_exists.mp hname
    obtain ⟨address, haddr⟩ := Option.isSome_iff_exists.mp haddr
    exact moves_createRide r _ s hr (configRange_create hf hname haddr)
  case h_2 u hu =>
    refine moves_updateRide r u _ s hu (configRange_store hf) ?_
    cases ha : f.fieldAddress with
    | none => exact .inl (by simp [RideConfig.store, clampFields, ha])
    | some a => exact .inr (by simpa [RideConfig.store, clampFields, ha] using hf.fieldAddress a ha)

theorem moves_removeRide (r : Nat) (s : State) : Moves s (removeRide r s) := by
  have hest : Moves s { s with ests := s.ests.remove r } :=
    Move.moves (Move.ests _ fun h x hx => h.ests x (Table.mem_remove _ _ _ hx))
  have hfield := hest.trans (Move.moves (Move.poller { s.poller with records := s.poller.records.remove r }
    fun h x hx => h.fields x (Table.mem_remove _ _ _ hx)))
  have hunits := hfield.trans (Move.moves (Move.units (s.units.remove r)
    ⟨fun h => Table.wf_remove _ _ h, fun h hd x hx => h.rides hd x (Table.mem_remove _ _ _ hx),
      fun h x hx => ⟨h.rides x (Table.mem_remove _ _ _ hx), h.units x (Table.mem_remove _ _ _ hx)⟩⟩))
  exact moves_then (moves_rideGone r _) (moves_then (moves_abandonPoll r _) hunits)

/-- CONFRIDE, where the fields of a request that is not refused fit a frame (R183). -/
theorem moves_serveConfride (r : Nat) (remove : Bool) (f : RideFields) (bad : Bool) (s : State)
    (hf : bad = false → remove = false → f.fitsFrame = true) : Moves s (serveConfride r remove f bad s).1 := by
  unfold serveConfride
  split
  · exact .refl
  case h_2 hnone =>
    obtain ⟨hr, hbad, hm, -, hnew⟩ := confrideRefusal_none hnone
    split
    · exact moves_removeRide r s
    case isFalse hremove =>
      exact moves_storeRide r f s hr (rideFields_sound (hf hbad (by simpa using hremove)) hm) fun h => (hnew h).2

theorem dayRefusal_none {d : DayState} (h : dayRefusal d = none) : d = .day := (dayRefusal_none_iff d).mp h

theorem moves_act (a : RideAction) (r : Nat) (st : RideState) (s : State) (hd : s.time.day = .day) :
    Moves s (a.act r st s) := by
  cases a with
  | down =>
    unfold RideAction.act
    dsimp only
    split
    · exact .refl
    · exact moves_enterState_of_day r _ hd
  | close => exact moves_closeRide r s
  | openRide => exact moves_enterState_of_day r (.testing .fromClosed) hd
  | hold => exact moves_enterState_of_day r (.held .operations) hd
  | resume => exact moves_enterState_of_day r .opened hd
  | clear => exact moves_enterState_of_day r (.testing .fromDown) hd
  | lastentry => exact moves_enterState_of_day r .closing hd

theorem moves_serveSetride (r action guard operand : Nat) (s : State) :
    Moves s (serveSetride r action guard operand s).1 := by
  unfold serveSetride
  split
  · exact .refl
  case h_2 hday =>
    split
    · exact .refl
    · split
      · exact .refl
      · split
        · exact .refl
        · split
          · exact .refl
          · split
            · exact .refl
            · exact moves_act _ r _ s (dayRefusal_none hday)

theorem moves_takeSetqueue (r q : Nat) (s : State) (hq : q ≤ Config.queueMax) : Moves s (takeSetqueue r q s) :=
  moves_then (moves_reportZero r _) (moves_modEst s r _ fun _ _ h => { h with q := hq })

theorem moves_serveSetqueue (r guard operand q : Nat) (s : State) : Moves s (serveSetqueue r guard operand q s).1 := by
  unfold serveSetqueue
  split
  · exact .refl
  · split
    · exact .refl
    · split
      · exact .refl
      · split
        · exact .refl
        · split
          · exact .refl
          · exact moves_takeSetqueue r _ s (saturate_le _ _)

theorem moves_takeSetwindow (r first last v : Nat) (s : State) : Moves s (takeSetwindow r first last v s) := by
  refine moves_then (moves_judgeSlots r _) (moves_then (moves_judgeFlex r _) (moves_then (moves_place r _)
    (moves_modBook s r _ fun b _ hb => hb.map fun w hw => ?_)))
  unfold Window.setInRange
  split
  · exact setCap_sound _ w
  · exact hw

theorem moves_serveSetwindow (r guard operand first last capacity : Nat) (s : State) :
    Moves s (serveSetwindow r guard operand first last capacity s).1 := by
  unfold serveSetwindow
  split
  · exact .refl
  · split
    · exact .refl
    · split
      · exact .refl
      · dsimp only
        split
        · exact .refl
        · split
          · exact .refl
          · split
            · exact .refl
            · exact moves_takeSetwindow r _ _ _ s

/-! ### Passes -/

/-- A window that RESERVE finds has room for the party (R112). -/
theorem reserveFind_room {s : State} {o : ReserveOps} {f : Found} (h : s.reserveFind o = .ok f) :
    (s.rideBook o.ride).windows[f.index]? = some f.window ∧ o.party ≤ f.window.cap - f.window.issued - f.window.hold := by
  unfold State.reserveFind at h
  repeat' split at h
  all_goals cases h
  rename_i hw
  obtain ⟨hget, ⟨-, -, hroom⟩, -⟩ := (searchWindow_some_iff _ _ _ _ _ _).mp hw
  exact ⟨hget, hroom⟩

theorem reclaim_rides (b : Book) : b.reclaim.rides = b.rides := by
  unfold Book.reclaim
  split
  · split <;> rfl
  · rfl

/-- A pass is reclaimed by taking it out of the table, or nothing is (R106). -/
theorem reclaim_passes (b : Book) : b.reclaim.passes = b.passes ∨ ∃ n, b.reclaim.passes = b.passes.remove n := by
  unfold Book.reclaim
  split
  · split
    · exact .inl rfl
    · exact .inr ⟨_, rfl⟩
  · exact .inl rfl

theorem moves_issuePass (o : ReserveOps) (f : Found) (s : State) (h : s.reserveFind o = .ok f) :
    Moves s (issuePass o f.index s) := by
  have hday := State.day_of_reserveFind_ok h
  obtain ⟨hget, hroom⟩ := reserveFind_room h
  refine moves_then (moves_judgeBook _) (moves_then (moves_judgeSlots _ _) (moves_bookMove _ _
    ⟨fun hb => ?_, fun hb => ?_, fun hb x hx => ?_, fun _ hn => absurd hday hn⟩))
  · simpa [Book.issue, reclaim_rides] using hb.keyed
  · refine Table.wf_put _ _ _ ?_
    rcases reclaim_passes s.book with he | ⟨n, he⟩ <;> rw [he]
    · exact hb.passes
    · exact Table.wf_remove _ _ hb.passes
  · simp only [Book.issue, reclaim_rides] at hx
    obtain ⟨y, hy, -, hv⟩ := Table.mem_update _ _ _ _ hx
    rw [hv]
    split
    case isTrue heq =>
      have hbook : s.rideBook o.ride = y.2 := by
        have hfind := Table.find_of_mem _ hb.keyed y hy
        rw [heq] at hfind
        simp [State.rideBook, hfind]
      refine (bookInv_sound hb y hy).modify f.index fun w hw hle => ?_
      rw [← hbook, hget] at hw
      obtain rfl := Option.some.inj hw
      dsimp only
      rw [hbook] at hget
      have := (bookInv_sound hb y hy).1 _ (List.mem_of_getElem? hget)
      omega
    case isFalse => exact bookInv_sound hb y hy

theorem moves_serveReserve (o : ReserveOps) (s : State) : Moves s (serveReserve o s).1 := by
  unfold serveReserve
  split
  · exact .refl
  case h_2 f hf =>
    dsimp only
    split
    · exact .refl
    · split
      · exact .refl
      · exact moves_issuePass o f s hf

theorem moves_earlyResolution (p : Pass) (s : State) (hd : s.time.day = .day) : Moves s (earlyResolution p s) := by
  unfold earlyResolution
  split
  · split
    · exact .refl
    · split
      · exact moves_resolveUpTo _ _ s hd
      · exact .refl
  · exact .refl

/-- A change of a pass that leaves its state alone. -/
theorem moves_modPass (s : State) (n : Nat) (f : Pass → Pass) (hf : ∀ p, (f p).state = p.state) :
    Moves s (s.modPass n f) := by
  refine Move.moves (Move.book { s.book with passes := s.book.passes.update n f }
    ⟨fun h => h.keyed, fun h => by simpa using h.passes, bookInv_sound, fun h hd x hx => ?_⟩)
  obtain ⟨y, hy, -, hv⟩ := Table.mem_update _ _ _ _ hx
  have hy := h.passes hd y hy
  rw [hv]
  split
  · exact ⟨by rw [hf]; exact hy.1, by rw [hf]; exact hy.2⟩
  · exact hy

theorem moves_admitGuests (n a : Nat) (p : Pass) (s : State) : Moves s (admitGuests n a p s) := by
  have hflex : ∀ s : State, Moves s
      (if p.state = .flex then s.modBook p.ride fun b => { b with f := b.f - a, u := min b.u (b.f - a) } else s) := by
    intro s
    split
    · exact moves_modBook s _ _ fun b _ hb => ⟨hb.1, Nat.min_le_right _ _⟩
    · exact .refl
  have hissued : ∀ s : State, Moves s (if p.state = .issued then
      s.modWindow p.ride p.window fun w => { w with passes := w.passes.filter (· ≠ n) } else s) := by
    intro s
    split
    · exact moves_modWindow s _ _ _ fun _ _ hw => hw
    · exact .refl
  unfold admitGuests
  dsimp only
  split
  · exact moves_then (moves_retirePass n .redeemed _ ⟨nofun, nofun⟩) (moves_then (hissued _) (moves_then (hflex _)
      (moves_modPass s n _ fun _ => rfl)))
  · exact moves_then (hflex _) (moves_modPass s n _ fun _ => rfl)

theorem moves_judgeRequest (r : Nat) (s : State) : Moves s (judgeRequest r s) :=
  (moves_judgeFlex r s).trans (moves_judgeBook _)

theorem moves_serveRedeem (n k : Nat) (s : State) : Moves s (serveRedeem n k s).1 := by
  unfold serveRedeem
  split
  · exact .refl
  case h_2 hday =>
    split
    · exact .refl
    · split
      · exact .refl
      case h_2 found _ =>
        split
        · exact .refl
        · have hearly := moves_earlyResolution found s (dayRefusal_none hday)
          dsimp only
          split
          · exact hearly
          · split
            · exact hearly.trans (moves_judgeRequest _ _)
            · exact hearly.trans ((moves_admitGuests _ _ _ _).trans (moves_judgeRequest _ _))

theorem moves_voidIssued (n : Nat) (p : Pass) (s : State) : Moves s (voidIssued n p s) := by
  refine moves_then (moves_judgeRequest _ _) (moves_then (moves_judgeSlots _ _) (moves_then (moves_place _ _)
    (moves_then (moves_retirePass n .voided _ ⟨nofun, nofun⟩) (moves_modWindow s _ _ _ fun w _ hw => ?_))))
  dsimp only
  split <;> omega

theorem moves_voidFlex (n : Nat) (p : Pass) (s : State) : Moves s (voidFlex n p s) :=
  moves_then (moves_judgeBook _) (moves_then (moves_judgeSlots _ _) (moves_then (moves_judgeFlex _ _)
    (moves_then (moves_place _ _) (moves_then (moves_retirePass n .voided _ ⟨nofun, nofun⟩)
      (moves_modBook s _ _ fun _ _ hb => ⟨hb.1, Nat.min_le_right _ _⟩)))))

theorem moves_serveVoid (n : Nat) (s : State) : Moves s (serveVoid n s).1 := by
  unfold serveVoid
  split
  · exact .refl
  case h_2 hday =>
    split
    · exact .refl
    · split
      · exact .refl
      case h_2 found _ =>
        have hearly := moves_earlyResolution found s (dayRefusal_none hday)
        dsimp only
        split
        · exact hearly
        · split
          · exact hearly.trans (moves_voidIssued _ _ _)
          · exact hearly.trans (moves_voidFlex _ _ _)
          all_goals exact hearly.trans (moves_judgeRequest _ _)

/-! ### Boards, notices and restarts -/

theorem lineRange_fresh : LineRange Line.fresh :=
  ⟨fun _ _ h => (nomatch h), fun _ h => (nomatch h), Nat.zero_le _⟩

theorem lineRange_freshLines (k : Kind) : ∀ l ∈ k.freshLines, LineRange l := fun _ hl =>
  List.eq_of_mem_replicate hl ▸ lineRange_fresh

theorem moves_setBoard (a : Nat) (k : Kind) (s : State) : Moves s (setBoard a k s) := by
  unfold setBoard
  split
  · refine Move.moves (Move.boards _ fun h x hx => ?_)
    rcases Table.mem_put _ _ _ _ hx with rfl | hx
    · exact lineRange_freshLines k
    · exact h.lines x hx
  · split
    · split
      · exact moves_modBoard s a _ fun _ _ hb => hb
      · exact .refl
    · exact moves_then (moves_abandonFrame a _) (moves_modBoard s a _ fun _ _ _ => lineRange_freshLines k)

theorem moves_removeBoard (a : Nat) (s : State) : Moves s (removeBoard a s) := by
  have hremove : Moves s (passOver a (abandonFrame a
      { s with boards := { s.boards with table := s.boards.table.remove a } })) :=
    moves_then (moves_passOver a _) (moves_then (moves_abandonFrame a _)
      (Move.moves (Move.boards _ fun h x hx => h.lines x (Table.mem_remove _ _ _ hx))))
  unfold removeBoard
  split
  · exact .refl
  · dsimp only
    split
    · exact hremove.trans (moves_reportLevel _ _ _ _ _)
    · exact hremove

theorem moves_serveConfboard (a : Nat) (remove : Bool) (kind ride : Option Nat) (bad : Bool) (s : State) :
    Moves s (serveConfboard a remove kind ride bad s).1 := by
  unfold serveConfboard
  split
  · exact .refl
  case h_2 o _ =>
    split
    · exact .refl
    · cases o with
      | remove => exact moves_removeBoard a s
      | ride r => exact moves_setBoard a _ s
      | hub => exact moves_setBoard a _ s

theorem moves_serveConfpane (a n : Nat) (o : PaneOps) (bad : Bool) (s : State) :
    Moves s (serveConfpane a n o bad s).1 := by
  unfold serveConfpane
  split
  · exact .refl
  · split
    · exact .refl
    · split
      · exact .refl
      · split
        · exact .refl
        · split
          · exact .refl
          · exact moves_modBoard s a _ fun _ _ hb => hb

theorem lineRange_takeText {l : Line} {o : TextOps} {passes : Nat} (h : LineRange l)
    (ho : o.malformed = false) (hp : passes ≤ 15) : LineRange (l.takeText o passes) := by
  unfold Line.takeText
  split
  · refine ⟨fun v n hv hn => ?_, fun v hv => ?_, ?_⟩
    · obtain rfl := Option.some.inj hv
      simp only [leftOf] at hn
      split at hn
      · cases hn
      case isFalse hd =>
        obtain rfl := Left.minutes.inj hn
        rw [saturate_eq_min, Config.overrideMax]
        omega
    · obtain rfl := Option.some.inj hv
      simp only [TextOps.malformed, Bool.or_eq_false_iff, decide_eq_false_iff_not, not_lt] at ho
      exact fillTo_length ho.1.2
    · dsimp only [Line.set]
      split
      · exact hp
      · exact h.blink
  · exact ⟨fun _ _ hv => (nomatch hv), fun _ hv => (nomatch hv), h.blink⟩

theorem moves_serveBoardtext (a n : Nat) (o : TextOps) (bad : Bool) (s : State) :
    Moves s (serveBoardtext a n o bad s).1 := by
  unfold serveBoardtext
  split
  · exact .refl
  case isFalse hbad =>
    simp only [Bool.or_eq_true, not_or, Bool.not_eq_true] at hbad
    split
    · exact .refl
    · split
      · exact .refl
      · exact moves_modBoard s a _ fun h b hb => modLine_lines b n _ hb fun _ hl =>
          lineRange_takeText hl hbad.2 h.params.blinkPasses

theorem moves_serveConfnote (es : List NoteEntry) (s : State) : Moves s (serveConfnote es s).1 := by
  unfold serveConfnote
  split
  · exact .refl
  · exact moves_foldl moves_applyNote es s

theorem moves_clearSlots (ids : List SlotId) (x : State × Nat) : Moves x.1 (ids.foldl clearSlot x).1 := by
  induction ids generalizing x with
  | nil => exact .refl
  | cons id ids ih => exact (moves_clearSlot x id).trans (ih _)

theorem moves_serveClearnote (es : List ClearEntry) (s : State) : Moves s (serveClearnote es s).1 := by
  have hall : ∀ (es : List ClearEntry) (x : State × Nat),
      Moves x.1 (es.foldl (fun x e => (coveredSlots e.cls e.src).foldl clearSlot x) x).1 := by
    intro es
    induction es with
    | nil => exact fun _ => .refl
    | cons e es ih => exact fun x => (moves_clearSlots _ x).trans (ih _)
  unfold serveClearnote
  split
  · exact .refl
  · exact hall es (s, 0)

/-- A change of the port that leaves its queues and its counters alone. -/
theorem moves_port (s : State) (p : Port) (ho : p.output = s.port.output) (hw : p.waiting = s.port.waiting)
    (hi : p.input.length ≤ s.port.input.length) (hc : p.crcErrors = s.port.crcErrors)
    (ht : p.timeouts = s.port.timeouts) (hv : p.overruns = s.port.overruns) : Moves s { s with port := p } :=
  Move.moves (Move.port p ⟨ho, hw, hi.trans, fun h => hc ▸ h, fun h => ht ▸ h, fun h => hv ▸ h⟩)

theorem moves_serveRestart (kind : Nat) (s : State) : Moves s (serveRestart kind s).1 := by
  unfold serveRestart
  split
  · exact .refl
  · exact moves_port s _ rfl rfl le_rfl rfl rfl rfl

/-! ### All requests -/

/-- A request as a frame carries it, as far as the ranges of what it stores need it: the fields of a CONFRIDE that is not
refused for its shape fit a frame (R183). -/
def Carried : Request → Prop
  | .confride _ remove f bad => bad = false → remove = false → f.fitsFrame = true
  | _ => True

theorem moves_serve (tag : Nat) (rq : Request) (s : State) (hrq : Carried rq) (hw : s.port.waiting = []) :
    Moves s (serve tag rq s).1 := by
  cases rq with
  | setclock v => exact moves_serveSetclock v s
  | openday o c => exact moves_serveOpenday tag o c s hw
  | closeday =>
    unfold serve serveCloseday
    dsimp only
    split
    · exact .refl
    · exact moves_takeCloseday s
  | confpark g => exact moves_serveConfpark g s
  | confride r remove f bad => exact moves_serveConfride r remove f bad s hrq
  | setride r a g o => exact moves_serveSetride r a g o s
  | setqueue r g o q => exact moves_serveSetqueue r g o q s
  | setwindow r g o a b c => exact moves_serveSetwindow r g o a b c s
  | reserve r t p g o f => exact moves_serveReserve _ s
  | redeem n k => exact moves_serveRedeem n k s
  | void n => exact moves_serveVoid n s
  | confboard a remove k r bad => exact moves_serveConfboard a remove k r bad s
  | confpane a n l rows pp sk fit bad => exact moves_serveConfpane a n _ bad s
  | boardtext a n act t d bl bad => exact moves_serveBoardtext a n _ bad s
  | confnote es => exact moves_serveConfnote es s
  | clearnote es => exact moves_serveClearnote es s
  | restart k => exact moves_serveRestart k s
  | fieldinfo | rideinfo | windowinfo | lookup | listpasses | accountinfo | boardinfo | noteinfo | status => exact .refl

end Sys2Proof.Machine
end

section
/-! Turns: what one command does to the state is a number of moves, and at most one of the few things that are not moves:
a reply enters the output, a sent record makes room, or a restart takes effect. The four invariants are kept by each
turn, so by each step. -/

namespace Sys2Proof.Machine

open Sys2Proof.Safety

/-- What one command can do, where `R` says what its moves amount to. -/
inductive Turn (R : State → State → Prop) (s : State) : State → Prop
  | moved {t : State} : R s t → Turn R s t
  | reply {t : State} (rcd : Record) : R s t → t.port.waiting = [] → Turn R s (enterReply rcd t)
  | opened {t : State} (rcd : Record) : R s t → t.time.pendingOpen.isSome = true →
      Turn R s (enterReply rcd { t with time := { t.time with pendingOpen := none } })
  | sent (rcd : Record) (rest : List Record) : s.port.output = rcd :: rest →
      Turn R s (grantPlace { s with port := { s.port with output := rest, sending := some rcd } })
  | granted : Turn R s (grantPlace s)
  | cold : Turn R s (resetCold s)
  | warm : Turn R s (resetWarm s)

/-- What keeps the invariants that do not bound the stored fields: a CONFRIDE does so whatever its fields are. -/
structure Shapes (s t : State) : Prop where
  pending : t.pending = s.pending
  waiting : s.port.waiting = [] → t.port.waiting = []
  port : PortInv s → PortInv t
  day : DayInv s → DayInv t
  book : BookInv s → BookInv t

theorem Moves.shapes {s t : State} (h : Moves s t) : Shapes s t :=
  ⟨h.pending, h.waiting_nil, h.portInv, h.dayInv, h.bookInv⟩

theorem Shapes.refl (s : State) : Shapes s s := ⟨rfl, id, id, id, id⟩

theorem Shapes.trans {s t u : State} (h : Shapes s t) (k : Shapes t u) : Shapes s u :=
  ⟨k.pending.trans h.pending, k.waiting ∘ h.waiting, k.port ∘ h.port, k.day ∘ h.day, k.book ∘ h.book⟩

/-- What the moves of a turn may amount to. -/
structure Kept (R : State → State → Prop) : Prop where
  moves : ∀ {s t}, Moves s t → R s t
  trans : ∀ {s t u}, R s t → R t u → R s u
  waiting : ∀ {s t}, R s t → s.port.waiting = [] → t.port.waiting = []

theorem kept_moves : Kept Moves := ⟨id, .trans, Moves.waiting_nil⟩

theorem kept_shapes : Kept Shapes := ⟨Moves.shapes, Shapes.trans, Shapes.waiting⟩

/-! ### The receiver -/

theorem countUp_le (n : Nat) : countUp n ≤ Config.counterMax := by
  rw [countUp, saturate_eq_min]
  exact Nat.min_le_left _ _

theorem moves_setReceiver (v : Receiver) (s : State) : Moves s (s.setReceiver v) :=
  moves_port s _ rfl rfl le_rfl rfl rfl rfl

theorem moves_discardFrame (s : State) : Moves s (discardFrame s) :=
  Move.moves (Move.port _ ⟨rfl, rfl, id, fun _ => countUp_le _, id, id⟩)

theorem moves_acceptFrame (f : Frame) (s : State) : Moves s (acceptFrame f s) := by
  unfold acceptFrame
  split
  next hroom =>
    refine Move.moves (Move.port _ ⟨rfl, rfl, fun _ => ?_, id, id, id⟩)
    simpa using hroom
  next => exact moves_then (moves_reportEvent _ _ _ _) (Move.moves (Move.port _ ⟨rfl, rfl, id, id, id, fun _ => countUp_le _⟩))

theorem moves_judgeFrame (n : Nat) (body check : List Byte) (s : State) : Moves s (judgeFrame n body check s) := by
  unfold judgeFrame
  split
  · exact moves_then (moves_acceptFrame _ _) (moves_setReceiver _ _)
  · exact moves_discardFrame s

theorem moves_receiveByte (s : State) (b : Byte) : Moves s (receiveByte s b) := by
  unfold receiveByte
  dsimp only
  split
  case h_1 =>
    split
    · exact moves_setReceiver _ _
    · exact .refl
  case h_2 =>
    split
    · exact moves_setReceiver _ _
    · split
      · exact moves_setReceiver _ _
      · exact moves_discardFrame s
  case h_3 => split <;> exact moves_setReceiver _ _
  case h_4 =>
    split
    · exact moves_setReceiver _ _
    · exact moves_judgeFrame _ _ _ s

theorem moves_receiveBytes (bs : List Byte) (s : State) : Moves s (receiveBytes bs s) :=
  moves_foldl moves_receiveByte bs s

theorem moves_receiveTimeout (s : State) : Moves s (receiveTimeout s) := by
  have htimeout : Moves s { s with port := { s.port with receiver := .hunt, timeouts := countUp s.port.timeouts } } :=
    Move.moves (Move.port _ ⟨rfl, rfl, id, id, fun _ => countUp_le _, id⟩)
  unfold receiveTimeout
  cases s.port.receiver with
  | hunt => exact .refl
  | header | body | check => exact htimeout

theorem moves_popInput (s : State) : Moves s s.popInput :=
  moves_port s _ rfl rfl (by simp) rfl rfl rfl

/-! ### A CONFRIDE whatever its fields are -/

theorem shapes_createRide (r : Nat) (c : RideConfig) (s : State) : Shapes s (createRide r c s) where
  pending := rfl
  waiting := id
  port h := ⟨h.inputs, h.outputs, h.waits, h.full, h.listed, h.once, h.slots, h.counters⟩
  day h := by
    refine ⟨Table.wf_put _ _ _ h.keyed, fun hd x hx => ?_, h.passes⟩
    rcases Table.mem_put _ _ _ _ hx with rfl | hx
    · rfl
    · exact h.rides hd x hx
  book h := ⟨Table.wf_put _ _ _ h.units, Table.wf_remove _ _ h.keyed, h.passes,
    fun x hx => h.windows x (Table.mem_remove _ _ _ hx), fun x hx => h.flex x (Table.mem_remove _ _ _ hx)⟩

theorem shapes_modConfig (r : Nat) (c : RideConfig) (s : State) :
    Shapes s (s.modUnit r fun u => { u with config := c }) where
  pending := rfl
  waiting := id
  port h := ⟨h.inputs, h.outputs, h.waits, h.full, h.listed, h.once, h.slots, h.counters⟩
  day h := by
    refine ⟨(Table.wf_update _ _ _).mpr h.keyed, fun hd x hx => ?_, h.passes⟩
    obtain ⟨y, hy, -, hxy⟩ := Table.mem_update _ _ _ _ hx
    have hclosed := h.rides hd y hy
    rw [hxy]
    split <;> exact hclosed
  book h := ⟨(Table.wf_update _ _ _).mpr h.units, h.keyed, h.passes, h.windows, h.flex⟩

theorem shapes_changeAddress (r a : Nat) (s : State) : Shapes s (changeAddress r a s) := by
  have hfield : Shapes s (s.modField r fun f => { f with address := a, baseValid := false, misses := 0 }) :=
    ⟨rfl, id, fun h => ⟨h.inputs, h.outputs, h.waits, h.full, h.listed, h.once, h.slots, h.counters⟩,
      fun h => dayInv_congr h rfl rfl rfl, fun h => bookInv_congr h rfl rfl⟩
  exact hfield.trans (moves_abandonPoll r _).shapes

theorem shapes_updateRide (r : Nat) (old new : RideConfig) (s : State) : Shapes s (updateRide r old new s).1 := by
  have haddr : ∀ s : State, Shapes s
      (if new.fieldAddress = old.fieldAddress then s else changeAddress r new.fieldAddress s) := by
    intro s
    split
    · exact Shapes.refl s
    · exact shapes_changeAddress r _ s
  have hboth := (shapes_modConfig r new s).trans (haddr _)
  unfold updateRide
  dsimp only
  generalize (if new.fieldAddress = old.fieldAddress then s.modUnit r fun u => { u with config := new }
    else changeAddress r new.fieldAddress (s.modUnit r fun u => { u with config := new })) = s' at hboth ⊢
  split
  · exact hboth.trans (moves_recomputeCaps r new s').shapes
  · exact hboth

theorem shapes_serveConfride (r : Nat) (remove : Bool) (f : RideFields) (bad : Bool) (s : State) :
    Shapes s (serveConfride r remove f bad s).1 := by
  unfold serveConfride
  split
  · exact Shapes.refl s
  · split
    · exact (moves_removeRide r s).shapes
    · unfold storeRide
      dsimp only
      split
      · exact shapes_createRide r _ s
      · exact shapes_updateRide r _ _ s

/-! ### Each command is a turn -/

theorem mayTake_waiting {s : State} (h : s.mayTake = true) : s.port.waiting = [] := by
  simp [State.mayTake] at h
  exact h.2

section

variable {R : State → State → Prop}

/-- A request that is served as `R` says. -/
def Served (R : State → State → Prop) (rq : Request) : Prop :=
  ∀ (tag : Nat) (s : State), s.port.waiting = [] → R s (serve tag rq s).1

theorem served_moves {rq : Request} (hrq : Carried rq) : Served Moves rq := fun tag s hw => moves_serve tag rq s hrq hw

theorem served_shapes (rq : Request) : Served Shapes rq := by
  intro tag s hw
  cases rq with
  | confride r remove f bad => exact shapes_serveConfride r remove f bad s
  | _ => exact (moves_serve tag _ s (by trivial) hw).shapes

theorem turn_takeRequest (hR : Kept R) {s t : State} (tag : Nat) {rq : Request} (hrq : Served R rq) (hm : R s t)
    (hw : t.port.waiting = []) : Turn R s (takeRequest tag rq t) := by
  have hgate : R t (gateServe tag rq t).1 := by
    unfold gateServe
    split
    · split
      · exact hR.moves .refl
      · exact hrq tag t hw
    · exact hrq tag t hw
  unfold takeRequest
  split
  next s' body he =>
    rw [he] at hgate
    exact .reply _ (hR.trans hm hgate) (hR.waiting hgate hw)
  next s' he =>
    rw [he] at hgate
    exact .moved (hR.trans hm hgate)

/-- A frame whose parameters are irregular is refused for its shape (R183). -/
theorem carried_of_irregular {rq : Request} (h : requestIrregular rq = true) : Carried rq := by
  cases rq with
  | confride r remove f bad =>
    intro hbad hremove
    simp [requestIrregular, hbad, hremove] at h
  | _ => trivial

theorem turn_portStep (hR : Kept R) (tag : Nat) {rq : Request} (s : State) (hrq : Served R rq) :
    Turn R s (portStep tag rq s) := by
  unfold portStep
  split
  next hmay =>
    have hw := mayTake_waiting hmay
    split
    · exact turn_takeRequest hR tag hrq (hR.moves .refl) hw
    · split
      next rq' _ =>
        split
        next hsame =>
          have hrq' : Served R rq' := by
            rcases hsame.2.2 with rfl | hirr
            · exact hrq
            · exact fun tag s hw => hR.moves (served_moves (carried_of_irregular hirr) tag s hw)
          exact turn_takeRequest hR tag hrq' (hR.moves (moves_popInput s)) hw
        next => exact .moved (hR.moves .refl)
      next =>
        split
        · exact .reply _ (hR.moves (moves_popInput s)) hw
        · exact .moved (hR.moves .refl)
      next => exact .moved (hR.moves .refl)
  next => exact .moved (hR.moves .refl)

theorem turn_unknownClassStep (hR : Kept R) (tag cls : Nat) (s : State) : Turn R s (unknownClassStep tag cls s) := by
  unfold unknownClassStep
  split
  next hmay =>
    have hw := mayTake_waiting hmay.1
    split
    · exact .reply _ (hR.moves .refl) hw
    · split
      · exact .reply _ (hR.moves (moves_popInput s)) hw
      · exact .moved (hR.moves .refl)
  next => exact .moved (hR.moves .refl)

theorem turn_sendRecord (hR : Kept R) (s : State) : Turn R s (sendRecord s) := by
  unfold sendRecord
  split
  · exact .moved (hR.moves .refl)
  · split
    · exact .moved (hR.moves .refl)
    next rcd rest ho => exact .sent rcd rest ho

theorem openedState_day (plan : Plan) (s : State) : (openedState plan s).time.day = .day := rfl

theorem turn_endOpening (hR : Kept R) (s : State) : Turn R s (endOpening s) := by
  unfold endOpening
  split
  next plan _ =>
    split
    next =>
      have hm : Moves s (deliverDueEvents (openedState plan s)) :=
        (moves_openedState plan s).trans (moves_deliverDueEvents _ (openedState_day plan s))
      unfold answerOpening
      split
      · exact .moved (hR.moves hm)
      next tag o ho => exact .opened _ (hR.moves hm) (by simp [ho])
    next => exact .moved (hR.moves .refl)
  next => exact .moved (hR.moves .refl)

theorem turn_takeRestart (hR : Kept R) (s : State) : Turn R s (takeRestart s) := by
  unfold takeRestart
  split
  · exact .cold
  · exact .warm
  · exact .moved (hR.moves .refl)

/-- A turn that a test guards. -/
theorem turn_ite (hR : Kept R) {s t : State} {p : Prop} [Decidable p] (h : Turn R s t) :
    Turn R s (if p then t else s) := by
  split
  · exact h
  · exact .moved (hR.moves .refl)

/-- Every command takes one turn, where `R` must say what serving a CONFRIDE with these fields does. -/
theorem exec_turn_of (hR : Kept R) (c : Instr) (s : State)
    (hc : ∀ tag r f, c = .confride tag r f → Served R (.confride r false f false)) :
    ∃ t, exec c s = .next t ∧ Turn R s t := by
  have served : ∀ {rq}, Carried rq → Served R rq := fun h tag s hw => hR.moves (served_moves h tag s hw)
  cases c with
  | powerOn => exact ⟨_, rfl, .cold⟩
  | secondTick => exact ⟨_, rfl, .moved (hR.moves (moves_referenceSecond s))⟩
  | holdCountdown | holdEnd => exact ⟨_, rfl, turn_ite hR (.moved (hR.moves (moves_referenceSecond s)))⟩
  | stallTimerExpiry r => exact ⟨_, rfl, .moved (hR.moves (moves_stallCheck r s))⟩
  | codeRise r => exact ⟨_, rfl, .moved (hR.moves (moves_codeRiseCheck r s))⟩
  | codeFall r => exact ⟨_, rfl, .moved (hR.moves (moves_codeFallCheck r s))⟩
  | heldTooLong r => exact ⟨_, rfl, .moved (hR.moves (moves_takeHeldMinute r s))⟩
  | testComplete r => exact ⟨_, rfl, turn_ite hR (.moved (hR.moves (moves_testCheck r s)))⟩
  | staleHoldReached r => exact ⟨_, rfl, .moved (hR.moves (moves_staleCheck r s))⟩
  | overrideExpiry a l => exact ⟨_, rfl, .moved (hR.moves (moves_expireOverride a l s))⟩
  | pollSent => exact ⟨_, rfl, .moved (hR.moves (moves_sendPoll s))⟩
  | goodReply bs => exact ⟨_, rfl, .moved (hR.moves (moves_takeFieldBytes bs s))⟩
  | pollMiss bs => exact ⟨_, rfl, .moved (hR.moves (moves_closeFieldWindow bs s))⟩
  | passIntervalExpiry => exact ⟨_, rfl, .moved (hR.moves (moves_intervalExpiry s))⟩
  | passStart => exact ⟨_, rfl, .moved (hR.moves (moves_passStartDue s))⟩
  | lineFrameSent => exact ⟨_, rfl, .moved (hR.moves (moves_sendNextLine s))⟩
  | boardStatus b => exact ⟨_, rfl, .moved (hR.moves (moves_takeBoardByte b s))⟩
  | boardMiss => exact ⟨_, rfl, .moved (hR.moves (moves_takeBoardMiss s))⟩
  | frameReceived bs => exact ⟨_, rfl, .moved (hR.moves (moves_receiveBytes bs s))⟩
  | lengthError hi lo => exact ⟨_, rfl, .moved (hR.moves (moves_receiveBytes [hi, lo] s))⟩
  | receiveTimeout => exact ⟨_, rfl, .moved (hR.moves (moves_receiveTimeout s))⟩
  | frameBegins => exact ⟨_, rfl, .moved (hR.moves (moves_receiveByte s 0x5A#8))⟩
  | abandonedFrameWindowClose => exact ⟨_, rfl, .moved (hR.moves (moves_reservedWindowClose s))⟩
  | unknownClass tag cls => exact ⟨_, rfl, turn_unknownClassStep hR tag cls s⟩
  | replyGranted | noticeGranted => exact ⟨_, rfl, turn_ite hR .granted⟩
  | outputRecordSend => exact ⟨_, rfl, turn_sendRecord hR s⟩
  | openingEnd => exact ⟨_, rfl, turn_endOpening hR s⟩
  | restartTakesEffect => exact ⟨_, rfl, turn_takeRestart hR s⟩
  | confride tag r f => exact ⟨_, rfl, turn_portStep hR tag s (hc tag r f rfl)⟩
  | confrideRemove tag r => exact ⟨_, rfl, turn_portStep hR tag s (served nofun)⟩
  | _ => exact ⟨_, rfl, turn_portStep hR _ s (served trivial)⟩

end

/-- Every command takes one turn that keeps the shape of the state. -/
theorem exec_turn_shapes (c : Instr) (s : State) : ∃ t, exec c s = .next t ∧ Turn Shapes s t :=
  exec_turn_of kept_shapes c s fun _ _ _ _ => served_shapes _

/-- Every command that fits its frame takes one turn of moves. -/
theorem exec_turn_moves (c : Instr) (s : State) (hc : c.wf = true) : ∃ t, exec c s = .next t ∧ Turn Moves s t := by
  refine exec_turn_of kept_moves c s fun tag r f he => served_moves fun _ _ => ?_
  simp only [he, Instr.wf, Bool.and_eq_true] at hc
  exact hc.2

/-! ### The parts that are not moves -/

theorem table_wf_filter {α : Type} (t : Table α) (p : Nat × α → Bool) (h : t.wf) : Table.wf (t.filter p) := by
  have hkeys : ∀ t : Table α, t.keys = t.map (·.1) := by
    intro t
    induction t with
    | nil => rfl
    | cons x t ih => simp [Table.keys, ih]
  rw [Table.wf, hkeys] at h ⊢
  exact h.sublist (List.filter_sublist.map _)

/-- A warm restart up to its notices and its port (R6). -/
def warmParts (s : State) : State :=
  { s with
    time := warmTime s.time
    units := s.units.each fun _ u => u.warm
    poller := warmPoller s.poller
    ests := warmEstimators s.ests }

theorem moves_warmParts (s : State) : Moves s (warmParts s) := by
  have htime : Moves s { s with time := warmTime s.time } := moves_time s _ id rfl rfl rfl
  refine moves_then (Move.moves (Move.ests _ fun h x hx => ?_)) (moves_then (Move.moves (Move.poller _ fun h x hx => ?_))
    (moves_then (Move.moves (Move.units _ ⟨fun h => ?_, fun h hd x hx => ?_, fun h x hx => ?_⟩)) htime))
  · obtain ⟨y, hy, -, hxy⟩ := Table.mem_each _ _ _ hx
    rw [hxy]
    exact { h.ests y hy with }
  · obtain ⟨y, hy, -, hxy⟩ := Table.mem_each _ _ _ hx
    rw [hxy]
    exact { h.fields y hy with misses := Nat.zero_le _ }
  · rwa [Table.wf_each]
  · obtain ⟨y, hy, -, hxy⟩ := Table.mem_each _ _ _ hx
    rw [hxy]
    exact h.rides hd y hy
  · obtain ⟨y, hy, hkey, hxy⟩ := Table.mem_each _ _ _ hx
    rw [hxy, ← hkey]
    exact ⟨h.rides y hy, { h.units y hy with stall := Nat.zero_le _, fault := Nat.zero_le _, clear := Nat.zero_le _ }⟩

theorem moves_warmBoards (s : State) : Moves s (warmBoards s) := by
  have htable : ∀ c : Composer, c.table = (s.boards.table.each fun _ b => b.warm) → Moves s { s with boards := c } := by
    intro c hc
    refine Move.moves (Move.boards c fun h x hx l hl => ?_)
    rw [hc] at hx
    obtain ⟨y, hy, -, hxy⟩ := Table.mem_each _ _ _ hx
    rw [hxy] at hl
    obtain ⟨l', hl', rfl⟩ := List.mem_map.mp hl
    exact { h.lines y hy l' hl' with blink := Nat.zero_le _ }
  unfold warmBoards
  dsimp only
  split
  · exact htable _ rfl
  · exact moves_then (moves_startPass _) (htable _ rfl)

theorem resetWarm_eq (s : State) :
    resetWarm s = warmBoards { warmParts s with notices := warmNotices s.notices, port := Port.reset } := rfl

/-- A state in which one place has just become free: what waits fills it, so that one grant settles the port again. -/
structure OneFree (s : State) : Prop where
  inputs : s.port.input.length ≤ Config.inputPlaces
  free : s.port.output.length < Config.outputPlaces
  waits : s.port.waiting.length + s.time.pendingOpen.isSome.toNat ≤ 2
  full : s.port.waiting ≠ [] ∨ s.notices.sendList ≠ [] → s.port.output.length + 1 = Config.outputPlaces
  listed : ∀ id ∈ s.notices.sendList, (s.slot id).Sendable
  once : s.notices.sendList.Nodup
  slots : s.notices.slots.wf
  counters : s.port.crcErrors ≤ Config.counterMax ∧ s.port.timeouts ≤ Config.counterMax ∧
    s.port.overruns ≤ Config.counterMax

/-- Whose turn it is does not matter. -/
theorem OneFree.turned {s : State} (h : OneFree s) (b : Bool) :
    OneFree { s with port := { s.port with noticesLast := b } } :=
  ⟨h.inputs, h.free, h.waits, h.full, h.listed, h.once, h.slots, h.counters⟩

theorem OneFree.grantReply {s : State} (h : OneFree s) (hw : s.port.waiting ≠ []) : PortInv (grantReply s) := by
  obtain ⟨w, ws, he⟩ := List.exists_cons_of_ne_nil hw
  have hlen := h.full (.inl hw)
  have hwaits := h.waits
  simp only [Machine.grantReply, he]
  refine ⟨h.inputs, ?_, ?_, fun _ => ?_, h.listed, h.once, h.slots, h.counters⟩
  · simp only [List.length_append, List.length_singleton]; omega
  · simp only [he, List.length_cons] at hwaits ⊢; omega
  · simpa using hlen

theorem OneFree.grantNotice {s : State} (h : OneFree s) (hl : s.notices.sendList ≠ []) : PortInv (grantNotice s) := by
  obtain ⟨id, ids, he⟩ := List.exists_cons_of_ne_nil hl
  have hlen := h.full (.inr hl)
  obtain ⟨l, hpend⟩ := Option.isSome_iff_exists.mp (h.listed id (by simp [he])).1
  have honce := h.once
  rw [he, List.nodup_cons] at honce
  simp only [Machine.grantNotice, he, hpend]
  refine ⟨h.inputs, ?_, h.waits, fun _ => ?_, fun j hj => ?_, honce.2, setSlot_wf _ _ _ h.slots, h.counters⟩
  · simp only [State.setSlot_port, List.length_append, List.length_singleton]; omega
  · simpa using hlen
  · have hne : id ≠ j := fun h => honce.1 (h ▸ hj)
    have hslot : ∀ v, State.slot (State.setSlot { s with notices := { s.notices with sendList := ids } } id v) j =
        s.slot j := by
      intro v
      rw [slot_setSlot, if_neg hne]
      rfl
    have hsend : j ∈ s.notices.sendList := he ▸ List.mem_cons_of_mem _ hj
    change Slot.Sendable (State.slot (State.setSlot _ id _) j)
    rw [hslot]
    exact h.listed j hsend

/-- Granting the one free place keeps the invariant of the port. -/
theorem OneFree.grantPlace {s : State} (h : OneFree s) : PortInv (grantPlace s) := by
  have hp := (hasPlace_iff s).mpr h.free
  unfold Machine.grantPlace
  rw [if_pos hp]
  split
  next hw hl =>
    exact ⟨h.inputs, h.free.le, h.waits, by simp [hw, hl], h.listed, h.once, h.slots, h.counters⟩
  next hw hl => exact h.grantReply (by simp [hw])
  next hw hl => exact h.grantNotice (by simp [hl])
  next hw hl =>
    split
    · exact (h.turned false).grantReply (by simp [hw])
    · exact (h.turned true).grantNotice (by simp [hl])

/-- Nothing that waits is left without a place, so a grant by itself changes nothing. -/
theorem portInv_granted {s : State} (h : PortInv s) : grantPlace s = s := by
  cases hp : s.hasPlace with
  | false => exact grantPlace_full s hp
  | true =>
    obtain ⟨hw, hl⟩ := portInv_idle h hp
    exact grantPlace_idle s hw hl

theorem portInv_enterReply {s : State} (h : PortInv s) (rcd : Record)
    (hroom : s.port.waiting.length + 1 + s.time.pendingOpen.isSome.toNat ≤ 2) : PortInv (enterReply rcd s) := by
  cases hp : s.hasPlace with
  | true =>
    have hlt := (hasPlace_iff s).mp hp
    obtain ⟨hw, hl⟩ := portInv_idle h hp
    rw [enterReply_place rcd s hp]
    refine ⟨h.inputs, ?_, h.waits, by simp [hw, hl], h.listed, h.once, h.slots, h.counters⟩
    simp only [List.length_append, List.length_singleton]; omega
  | false =>
    rw [enterReply_wait rcd s hp]
    refine ⟨h.inputs, h.outputs, ?_, fun _ => portInv_output_full (s := s) h hp, h.listed, h.once, h.slots, h.counters⟩
    simpa using hroom

theorem slot_empty (s : State) (id : SlotId) (h : s.notices.slots = []) : s.slot id = Slot.reset := by
  simp [State.slot, h]

theorem portInv_resetCold (s : State) : PortInv (resetCold s) :=
  ⟨Nat.zero_le _, Nat.zero_le _, Nat.zero_le _, by simp [resetCold, State.reset, Port.reset, NoticeUnit.reset],
    nofun, List.nodup_nil, List.Pairwise.nil, ⟨Nat.zero_le _, Nat.zero_le _, Nat.zero_le _⟩⟩

theorem portInv_resetWarm {s : State} (h : PortInv s) : PortInv (resetWarm s) := by
  rw [resetWarm_eq]
  refine (moves_warmBoards _).portInv ⟨Nat.zero_le _, Nat.zero_le _, ?_, ?_, nofun, List.nodup_nil, ?_,
    ⟨Nat.zero_le _, Nat.zero_le _, Nat.zero_le _⟩⟩
  · have := Bool.toNat_le s.time.pendingOpen.isSome
    simp only [Port.reset, List.length_nil, warmParts, warmTime]; omega
  · simp [Port.reset, warmNotices]
  · exact table_wf_filter _ _ ((Table.wf_each _ _).mpr h.slots)

theorem Turn.portInv {s t : State} (ht : Turn Shapes s t) (h : PortInv s) : PortInv t := by
  cases ht with
  | moved hm => exact hm.port h
  | @reply t rcd hm hw =>
    have := Bool.toNat_le t.time.pendingOpen.isSome
    exact portInv_enterReply (hm.port h) rcd (by simp only [hw, List.length_nil]; omega)
  | @opened t rcd hm ho =>
    have ht := hm.port h
    have hwaits := ht.waits
    simp only [ho, Bool.toNat_true] at hwaits
    have hroom : t.port.waiting.length + 1 ≤ 2 := by omega
    refine portInv_enterReply ?_ rcd hroom
    exact ⟨ht.inputs, ht.outputs, Nat.le_of_succ_le hroom, ht.full, ht.listed, ht.once, ht.slots, ht.counters⟩
  | sent rcd rest ho =>
    have hout := h.outputs
    have hfull := h.full
    rw [ho, List.length_cons] at hout hfull
    exact OneFree.grantPlace ⟨h.inputs, hout, h.waits, hfull, h.listed, h.once, h.slots, h.counters⟩
  | granted => rwa [portInv_granted h]
  | cold => exact portInv_resetCold s
  | warm => exact portInv_resetWarm h

/-! ### The other three invariants do not read the port -/

theorem dayInv_resetCold (s : State) : DayInv (resetCold s) := ⟨List.Pairwise.nil, nofun, nofun⟩

theorem bookInv_resetCold (s : State) : BookInv (resetCold s) :=
  ⟨List.Pairwise.nil, List.Pairwise.nil, List.Pairwise.nil, nofun, nofun⟩

theorem paramsRange_default : ParamsRange Params.default := by
  constructor <;> decide

theorem rangeInv_resetCold {s : State} (h : ∀ i ∈ s.pending, i.wf = true) : RangeInv (resetCold s) :=
  ⟨h, Nat.zero_le _, paramsRange_default, List.Pairwise.nil, nofun, nofun, nofun, nofun, nofun⟩

theorem Turn.dayInv {s t : State} (ht : Turn Shapes s t) (h : DayInv s) : DayInv t := by
  cases ht with
  | moved hm => exact hm.day h
  | reply rcd hm _ => exact dayInv_congr (hm.day h) (by simp) (by simp) (by simp)
  | opened rcd hm _ => exact dayInv_congr (hm.day h) (by simp) (by simp) (by simp)
  | sent rcd rest _ => exact dayInv_congr h (by simp) (by simp) (by simp)
  | granted => exact dayInv_congr h (by simp) (by simp) (by simp)
  | cold => exact dayInv_resetCold s
  | warm => exact (moves_warmBoards _).dayInv (dayInv_congr ((moves_warmParts s).dayInv h) rfl rfl rfl)

theorem Turn.bookInv {s t : State} (ht : Turn Shapes s t) (h : BookInv s) : BookInv t := by
  cases ht with
  | moved hm => exact hm.book h
  | reply rcd hm _ => exact bookInv_congr (hm.book h) (by simp) (by simp)
  | opened rcd hm _ => exact bookInv_congr (hm.book h) (by simp) (by simp)
  | sent rcd rest _ => exact bookInv_congr h (by simp) (by simp)
  | granted => exact bookInv_congr h (by simp) (by simp)
  | cold => exact bookInv_resetCold s
  | warm => exact (moves_warmBoards _).bookInv (bookInv_congr ((moves_warmParts s).bookInv h) rfl rfl)

theorem Turn.rangeInv {s t : State} (ht : Turn Moves s t) (h : RangeInv s) : RangeInv t := by
  cases ht with
  | moved hm => exact hm.rangeInv h
  | reply rcd hm _ => exact rangeInv_congr (hm.rangeInv h) (by simp) (by simp) (by simp) (by simp) (by simp) (by simp)
  | @opened t rcd hm _ =>
    have ht := hm.rangeInv h
    exact rangeInv_congr (s := { t with time := { t.time with pendingOpen := none } })
      { ht with clock := ht.clock, params := ht.params } (by simp) (by simp) (by simp) (by simp) (by simp) (by simp)
  | sent rcd rest _ => exact rangeInv_congr h (by simp) (by simp) (by simp) (by simp) (by simp) (by simp)
  | granted => exact rangeInv_congr h (by simp) (by simp) (by simp) (by simp) (by simp) (by simp)
  | cold => exact rangeInv_resetCold h.commands
  | warm =>
    exact (moves_warmBoards _).rangeInv (rangeInv_congr ((moves_warmParts s).rangeInv h) rfl rfl rfl rfl rfl rfl)

theorem Turn.pending {s t : State} (ht : Turn Shapes s t) : t.pending = s.pending := by
  cases ht with
  | moved hm => exact hm.pending
  | reply rcd hm _ => simpa using hm.pending
  | opened rcd hm _ => simpa using hm.pending
  | sent rcd rest _ => simp
  | granted => simp
  | cold => rfl
  | warm => exact (moves_warmBoards _).pending.trans (moves_warmParts s).pending

end Sys2Proof.Machine
end

section
/-! Every command completes, the four invariants are kept by every step and hold at reset: O1 to O8. -/

namespace Sys2Proof.Machine

open Sys2Proof.Safety

/-- Settles O1, by the two cases of the list of waiting commands. -/
theorem stepTakesFront : Obligations.StepTakesFront := by
  refine ⟨fun c cs s h => ?_, fun s h => ?_⟩
  · simp only [step, h]
    rfl
  · simp only [step, h]

/-- Settles O2: every command takes one turn, and a turn leaves the waiting commands alone. -/
theorem everyCommandCompletes : Obligations.EveryCommandCompletes := by
  intro c s
  obtain ⟨t, he, ht⟩ := exec_turn_shapes c s
  exact ⟨t, he, ht.pending⟩

/-- A step with a command waiting takes that command on the state without it, and otherwise changes nothing. -/
theorem step_cases {s t : State} (h : step s = .next t) :
    t = s ∨ ∃ c cs, s.pending = c :: cs ∧ exec c (s.withPending cs) = .next t := by
  cases hs : s.pending with
  | nil =>
    rw [stepTakesFront.2 s hs] at h
    cases h
    exact .inl rfl
  | cons c cs =>
    rw [stepTakesFront.1 c cs s hs] at h
    exact .inr ⟨c, cs, rfl, h⟩

/-- What every turn keeps, and what does not read the waiting commands, is kept by every step. -/
theorem step_keeps {p : State → Prop} (hp : ∀ s cs, p s → p (s.withPending cs))
    (hturn : ∀ s t, Turn Shapes s t → p s → p t) {s t : State} (h : p s) (ht : step s = .next t) : p t := by
  rcases step_cases ht with rfl | ⟨c, cs, -, he⟩
  · exact h
  · obtain ⟨u, hu, hturned⟩ := exec_turn_shapes c (s.withPending cs)
    rw [hu] at he
    cases he
    exact hturn _ _ hturned (hp s cs h)

/-- Settles O5: a full output queue is refilled as soon as a record leaves it. -/
theorem portInvariantKept : Obligations.PortInvariantKept := fun _ _ h ht =>
  step_keeps (fun _ _ h => ⟨h.inputs, h.outputs, h.waits, h.full, h.listed, h.once, h.slots, h.counters⟩)
    (fun _ _ ht h => ht.portInv h) h ht

/-- Settles O6: DAY is left at rest only, and outside DAY no ride leaves CLOSED and no pass becomes active. -/
theorem dayInvariantKept : Obligations.DayInvariantKept := fun _ _ h ht =>
  step_keeps (fun _ _ h => dayInv_congr h rfl rfl rfl) (fun _ _ ht h => ht.dayInv h) h ht

/-- Settles O7: a pass is issued only where its party has room, and what a window holds is never above its free places. -/
theorem bookInvariantKept : Obligations.BookInvariantKept := fun _ _ h ht =>
  step_keeps (fun _ _ h => bookInv_congr h rfl rfl) (fun _ _ ht h => ht.bookInv h) h ht

/-- Settles O8: what a command stores is clamped, counted up to a bound, or read from a frame's bytes. -/
theorem rangeInvariantKept : Obligations.RangeInvariantKept := by
  intro s t h ht
  rcases step_cases ht with rfl | ⟨c, cs, hs, he⟩
  · exact h
  · have hpopped : RangeInv (s.withPending cs) :=
      { h with commands := fun i hi => h.commands i (by rw [hs]; exact List.mem_cons_of_mem c hi) }
    obtain ⟨u, hu, hturned⟩ := exec_turn_moves c (s.withPending cs) (h.commands c (by rw [hs]; exact List.mem_cons_self))
    rw [hu] at he
    cases he
    exact hturned.rangeInv hpopped

/-- Settles O4: a reset is a cold restart of the state at reset. -/
theorem invariantsAtReset : Obligations.InvariantsAtReset := by
  have hreset : resetCold State.reset = State.reset := rfl
  have hport := portInv_resetCold State.reset
  have hday := dayInv_resetCold State.reset
  have hbook := bookInv_resetCold State.reset
  have hrange : RangeInv (resetCold State.reset) := rangeInv_resetCold fun i hi => nomatch hi
  rw [hreset] at hport hday hbook hrange
  exact ⟨hport, hday, hbook, hrange⟩

/-- Settles O3: POWER ON writes every field but the orders still to be drawn and the waiting commands. -/
theorem powerOnResets : Obligations.PowerOnResets := by
  intro s
  refine ⟨resetCold s, rfl, ?_⟩
  have hedge : ∀ c : NoteClass, (resetCold s).notices.edges.of c = .rise := by
    intro c
    cases c <;> rfl
  have hslot : ∀ id, (resetCold s).slot id = Slot.reset := fun _ => rfl
  refine ⟨rfl, rfl, rfl, rfl, rfl, rfl, rfl, rfl, rfl, rfl, rfl, rfl, rfl, rfl, rfl, rfl, rfl, rfl, rfl, rfl, rfl, rfl,
    rfl, rfl, rfl, rfl, rfl, rfl, rfl, rfl, rfl, rfl, rfl, hslot, hedge, ?_⟩
  exact ⟨rfl, rfl, rfl, rfl, rfl, rfl, rfl, rfl, rfl, rfl, rfl, rfl, rfl⟩

end Sys2Proof.Machine
end

section
/-! Requests that are answered at once, the queries, the gate while the day opens, the receiver and the clock that stands
still: O9, O11, O31, O32, O40, O41, O44. -/

namespace Sys2Proof.Machine

open Sys2Proof.Safety

/-! ### From a command's row to its reply -/

theorem exec_next {c : Instr} {s t u : State} (h : exec c s = .next t) (htu : t = u) : exec c s = .next u := htu ▸ h

section

variable {c : Instr} {tag : Nat} {rq : Request} {s t : State} {body : ReplyBody}

/-- An offered request that is served with an answer enters it as its reply. -/
theorem exec_answered (hc : exec c s = .next (portStep tag rq s)) (h : Offered tag rq s)
    (hg : gateServe tag rq s.popInput = (t, some body)) :
    exec c s = .next (enterReply (.reply tag (requestClass rq) body) t) :=
  hc.trans (congrArg _ (portStep_answered tag rq s t body h hg))

/-- The same outside the time the day opens in, or for a request that passes the gate. -/
theorem exec_served (hc : exec c s = .next (portStep tag rq s)) (h : Offered tag rq s)
    (hd : s.time.day ≠ .opening ∨ gateCode rq = none) (hg : serve tag rq s.popInput = (t, some body)) :
    exec c s = .next (enterReply (.reply tag (requestClass rq) body) t) :=
  exec_answered hc h ((gateServe_pass tag rq s.popInput hd).trans hg)

end

/-- DAY is not the time in which the day opens. -/
theorem day_ne_opening {d : DayState} (h : d = .day) : d ≠ .opening := by
  rintro rfl
  cases h

/-- Outside DAY and the opening there are two day states (R3). -/
theorem idle_or_after_ne {d : DayState} (h : d = .idle ∨ d = .after) : d ≠ .opening ∧ d ≠ .day := by
  rcases h with rfl | rfl <;> exact ⟨nofun, nofun⟩

/-! ### Queries (R149) -/

/-- A query is taken from the port with its own request, and serving it only reads the state. -/
theorem isQuery_serve {i : Instr} {tag : Nat} {rq : Request} {f : State → ReplyBody} (h : IsQuery i tag rq f) :
    (∀ s, exec i s = .next (portStep tag rq s)) ∧ gateCode rq = none ∧ ∀ s, serve tag rq s = (s, some (f s)) := by
  cases h <;> exact ⟨fun _ => rfl, rfl, fun _ => rfl⟩

/-- Settles O31: a query passes the gate and is served without a change. -/
theorem queriesChangeNothing : Obligations.QueriesChangeNothing := by
  intro i tag rq f s hq hoff
  obtain ⟨hexec, hgate, hserve⟩ := isQuery_serve hq
  exact exec_served (hexec s) hoff (.inr hgate) (hserve _)

/-! ### The gate while the day opens (R7) -/

/-- The gate's answer is the row of the request, for each request that has one. -/
theorem gateRow_iff (s : State) (rq : Request) (body : ReplyBody) :
    GateRow s rq body ↔ ∃ c, gateCode rq = some c ∧ body = gateReply c s rq := by
  constructor
  · intro h
    cases h <;> exact ⟨_, rfl, rfl⟩
  · rintro ⟨c, hc, rfl⟩
    cases rq <;> cases hc <;> constructor

theorem gatePasses_iff (rq : Request) : GatePasses rq ↔ gateCode rq = none := by
  constructor
  · intro h
    cases h <;> rfl
  · intro h
    cases rq <;> simp [gateCode] at h <;> constructor

/-- A gated row of the table takes its request from the port, and the request has a row at the gate. -/
theorem gatedRow_exec {i : Instr} {tag : Nat} {rq : Request} (h : GatedRow i tag rq) (s : State) :
    exec i s = .next (portStep tag rq s) ∧ (gateCode rq).isSome = true := by
  cases h with
  | setride a => cases a <;> exact ⟨rfl, rfl⟩
  | _ => exact ⟨rfl, rfl⟩

/-- Settles O32: a request with a gate code is answered with its row, and one without is served. -/
theorem gateAnswers : Obligations.GateAnswers := by
  refine ⟨fun tag rq s hoff hd => ⟨fun body hrow => ?_, fun hpass => ?_⟩, fun i tag rq s hrow => ?_, fun rq s => ?_⟩
  · obtain ⟨c, hc, rfl⟩ := (gateRow_iff s rq body).mp hrow
    have hpop : gateReply c s.popInput rq = gateReply c s rq := by cases rq <;> rfl
    rw [← hpop]
    exact portStep_answered tag rq s s.popInput _ hoff (gateServe_gate tag rq s.popInput c hd hc)
  · have hgate := gateServe_pass tag rq s.popInput (.inr ((gatePasses_iff rq).mp hpass))
    rw [portStep_offered tag rq s hoff, takeRequest, hgate] <;> rfl
  · obtain ⟨hexec, hcode⟩ := gatedRow_exec hrow s
    obtain ⟨c, hc⟩ := Option.isSome_iff_exists.mp hcode
    exact ⟨hexec, _, (gateRow_iff s rq _).mpr ⟨c, hc, rfl⟩⟩
  · cases hc : gateCode rq with
    | none =>
      refine .inl ⟨(gatePasses_iff rq).mpr hc, fun body hrow => ?_⟩
      obtain ⟨c, hc', -⟩ := (gateRow_iff s rq body).mp hrow
      rw [hc] at hc'
      cases hc'
    | some c =>
      refine .inr ⟨fun hpass => ?_, _, (gateRow_iff s rq _).mpr ⟨c, hc, rfl⟩⟩
      rw [(gatePasses_iff rq).mp hpass] at hc
      cases hc

/-! ### Restart requests and classes that no request has (R180, R184) -/

/-- Settles O44: a RESTART is noted and answered, and takes effect only when its reply is sent. -/
theorem restartAnswered : Obligations.RestartAnswered := by
  intro tag s
  exact ⟨fun hoff => exec_served rfl hoff (.inr rfl) rfl, fun hoff => exec_served rfl hoff (.inr rfl) rfl⟩

/-- Settles O41: the port answers a class that no request has as soon as it may take the frame. -/
theorem unknownClassAnswered : Obligations.UnknownClassAnswered := by
  intro tag cls s hmay hcls hin
  refine ⟨exec_next rfl ?_, rfl⟩
  unfold unknownClassStep
  rw [if_pos ⟨hmay, hcls⟩]
  rcases hin with hnil | ⟨f, fs, hf, htag, hfcls⟩
  · rw [hnil, State.popInput_nil s hnil]
  · simp [hf, htag, hfcls]

/-! ### The receiver (R168, R171) -/

theorem countUp_eq (n : Nat) : countUp n = min 65535 (n + 1) := saturate_eq_min _ _

theorem receiveByte_hunt (s : State) (h : s.port.receiver = .hunt) :
    receiveByte s 0x5A#8 = s.setReceiver (.header []) := by
  simp [receiveByte, h]

theorem receiveByte_header_first (s : State) (b : Byte) (h : s.port.receiver = .header []) :
    receiveByte s b = s.setReceiver (.header [b]) := by
  simp [receiveByte, h]

theorem lengthOf_pair (hi lo : Byte) : lengthOf [hi, lo] = hi.toNat * 256 + lo.toNat := by
  simp [lengthOf]

/-- The second header byte gives the length, which the frame's body must have (R168). -/
theorem receiveByte_header_second (s : State) (hi lo : Byte) (h : s.port.receiver = .header [hi]) :
    receiveByte s lo =
      if 2 ≤ hi.toNat * 256 + lo.toNat ∧ hi.toNat * 256 + lo.toNat ≤ Config.lengthMax then
        s.setReceiver (.body (hi.toNat * 256 + lo.toNat) [])
      else discardFrame s := by
  simp [receiveByte, h, lengthOf_pair]

theorem receiveByte_check_first (s : State) (n : Nat) (body : List Byte) (b : Byte)
    (h : s.port.receiver = .check n body []) : receiveByte s b = s.setReceiver (.check n body [b]) := by
  simp [receiveByte, h]

theorem receiveByte_check_second (s : State) (n : Nat) (body : List Byte) (hi lo : Byte)
    (h : s.port.receiver = .check n body [hi]) : receiveByte s lo = judgeFrame n body [hi, lo] s := by
  simp [receiveByte, h]

theorem discardFrame_setReceiver (v : Receiver) (s : State) : discardFrame (s.setReceiver v) = discardFrame s := rfl

theorem discardFrame_eq (s : State) : discardFrame s =
    { s with port := { s.port with receiver := .hunt, crcErrors := min 65535 (s.port.crcErrors + 1) } } := by
  rw [← countUp_eq]
  rfl

theorem receiveTimeout_eq (s : State) (h : s.port.receiver ≠ .hunt) : receiveTimeout s =
    { s with port := { s.port with receiver := .hunt, timeouts := min 65535 (s.port.timeouts + 1) } } := by
  rw [← countUp_eq]
  unfold receiveTimeout
  cases hr : s.port.receiver with
  | hunt => exact absurd hr h
  | header | body | check => rfl

/-- Settles O40: what the receiver does with a byte out of place, a wrong length, a wrong check and a silence. -/
theorem receiverDiscards : Obligations.ReceiverDiscards := by
  refine ⟨fun s h => exec_next rfl (receiveByte_hunt s h), fun hi lo s h hlen => exec_next rfl ?_,
    fun s h => exec_next rfl (receiveTimeout_eq s h), fun n body hi lo s h hcrc => exec_next rfl ?_⟩
  · have hbad : ¬(2 ≤ hi.toNat * 256 + lo.toNat ∧ hi.toNat * 256 + lo.toNat ≤ Config.lengthMax) := by
      rintro ⟨h2, hmax⟩
      have hmax : hi.toNat * 256 + lo.toNat ≤ 1000 := hmax
      omega
    rw [receiveBytes, List.foldl_cons, List.foldl_cons, List.foldl_nil, receiveByte_header_first s hi h,
      receiveByte_header_second _ hi lo rfl, if_neg hbad, discardFrame_setReceiver, discardFrame_eq]
  · rw [receiveBytes, List.foldl_cons, List.foldl_cons, List.foldl_nil, receiveByte_check_first s n body hi h,
      receiveByte_check_second _ n body hi lo rfl, judgeFrame, if_neg hcrc, discardFrame_setReceiver, discardFrame_eq]

/-! ### The clock that stands still (R10, R14), and SETCLOCK outside DAY (R12) -/

theorem countReference_time (s : State) :
    (countReference s).time = { s.time with erase := s.time.erase.map fun n => min 2 (n + 1) } := by
  simp only [countReference, saturate_eq_min, Config.eraseSeconds]

theorem countReference_boards (s : State) : (countReference s).boards =
    { s.boards with timer := if s.boards.startOwed then s.boards.timer else s.boards.timer + 1 } := rfl

theorem referenceSecond_holding (s : State) (h : 0 < s.time.hold) :
    referenceSecond s = { countReference s with
      time := { (countReference s).time with hold := (countReference s).time.hold - 1 } } := by
  have hold : (countReference s).time.hold = s.time.hold := by rw [countReference_time]
  simp [referenceSecond, hold, h]

theorem referenceSecond_unset (s : State) (h : s.time.hold = 0) (hc : s.time.clockState = .unset) :
    referenceSecond s = countReference s := by
  have hold : (countReference s).time.hold = s.time.hold := by rw [countReference_time]
  have hclock : (countReference s).time.clockState = s.time.clockState := by rw [countReference_time]
  simp [referenceSecond, hold, h, hclock, hc]

theorem referenceSecond_running (s : State) (h : s.time.hold = 0) (hc : s.time.clockState = .running) :
    referenceSecond s = advance false (countReference s) := by
  have hold : (countReference s).time.hold = s.time.hold := by rw [countReference_time]
  have hclock : (countReference s).time.clockState = s.time.clockState := by rw [countReference_time]
  simp [referenceSecond, hold, h, hclock, hc]

/-- A reference second that the clock does not follow counts down the hold, if there is one. -/
theorem referenceSecond_still (s : State) (h : 0 < s.time.hold ∨ (s.time.hold = 0 ∧ s.time.clockState = .unset)) :
    referenceSecond s = { countReference s with
      time := { (countReference s).time with hold := (countReference s).time.hold - 1 } } := by
  rcases h with h | ⟨h, hc⟩
  · exact referenceSecond_holding s h
  · rw [referenceSecond_unset s h hc]
    simp [h, countReference]

/-- Settles O9: a second tick, a countdown and the end of a hold are one reference second each. -/
theorem clockStandsStill : Obligations.ClockStandsStill := by
  intro c s hc
  have hstill : 0 < s.time.hold ∨ (s.time.hold = 0 ∧ s.time.clockState = .unset) := by
    rcases hc with ⟨-, h⟩ | ⟨-, h⟩ | ⟨-, h⟩
    · exact .inl h
    · exact .inl (by omega)
    · exact .inr h
  have hexec : exec c s = .next (referenceSecond s) := by
    rcases hc with ⟨rfl | rfl, h⟩ | ⟨rfl, h⟩ | ⟨rfl, -⟩
    · rfl
    · exact congrArg _ (if_pos h)
    · exact congrArg _ (if_pos h)
    · rfl
  refine ⟨_, hexec, ?_⟩
  rw [referenceSecond_still s hstill]
  refine ⟨?_, countReference_boards s, rfl, rfl, rfl, rfl, rfl, rfl, rfl⟩
  simp [countReference_time]

theorem doneOr_saturate (bound v : Nat) :
    doneOr (saturate bound v ≠ v) = if bound < v then .clamped else .done := by
  by_cases h : bound < v
  · simp [doneOr, saturate, h]; omega
  · simp [doneOr, saturate, h]

/-- Settles O11: outside DAY the clock is written, whatever it was. -/
theorem setclockOutsideDay : Obligations.SetclockOutsideDay := by
  intro tag v s hoff hd
  have hserve : serve tag (.setclock v) s.popInput =
      (placeClock (saturate 86399 v) s.popInput,
        some (setclockReply (doneOr (saturate 86399 v ≠ v)) (placeClock (saturate 86399 v) s.popInput))) := by
    unfold serve answered serveSetclock
    dsimp only
    rw [if_neg (show s.popInput.time.day ≠ .day from hd)]
    rfl
  rw [exec_served rfl hoff (.inr rfl) hserve, doneOr_saturate, saturate_eq_min, Nat.min_comm]
  rfl

end Sys2Proof.Machine
end

section
/-! The park's parameters, the smoothing, the poll sent, the overrides, the stale hold and the start of a pass: O16, O48,
O49, O50, O54, O59. -/

namespace Sys2Proof.Machine

open Sys2Proof.Safety

/-! ### CONFPARK (R15, R16) -/

theorem lineText_iff (t : Text) : lineText t = true ↔ t.length ≤ 20 ∧ ∀ b ∈ t, 0x20 ≤ b.toNat ∧ b.toNat ≤ 0x7E := by
  simp only [lineText, printable, Bool.and_eq_true, List.all_eq_true, decide_eq_true_eq]
  exact and_comm

theorem paramsWellFormed_iff (g : Params) : paramsWellFormed g = true ↔ ∀ x ∈ [g.text1, g.text2, g.text3],
    x.length ≤ 20 ∧ ∀ b ∈ x, 0x20 ≤ b.toNat ∧ b.toNat ≤ 0x7E := by
  simp only [paramsWellFormed, Bool.and_eq_true, lineText_iff, List.forall_mem_cons, List.not_mem_nil, false_implies,
    implies_true, and_true, and_assoc]

/-- In a rising list the first member that is no farther than its successor is the nearest one, and the lower of two. -/
theorem nearest_listed (v : Nat) : ∀ xs : List Nat, xs ≠ [] → xs.Pairwise (· < ·) → NearestListed v (nearest v xs) xs
  | [], h, _ => absurd rfl h
  | [x], _, _ => ⟨List.mem_singleton_self x, fun y hy => .inr (by simp [List.mem_singleton.mp hy, nearest])⟩
  | x :: y :: ys, _, hrise => by
    obtain ⟨hx, hrest⟩ := List.pairwise_cons.mp hrise
    have hxy := hx y List.mem_cons_self
    rw [nearest]
    split
    next hle =>
      refine ⟨List.mem_cons_self, fun z hz => ?_⟩
      rcases List.mem_cons.mp hz with rfl | hz
      · exact .inr ⟨rfl, le_rfl⟩
      · have hyz : y ≤ z := by
          rcases List.mem_cons.mp hz with rfl | hz
          · exact le_rfl
          · exact (List.pairwise_cons.mp hrest).1 z hz |>.le
        unfold distance at hle ⊢
        omega
    next hgt =>
      obtain ⟨hmem, hbest⟩ := nearest_listed v (y :: ys) (by simp) hrest
      refine ⟨List.mem_cons_of_mem x hmem, fun z hz => ?_⟩
      rcases List.mem_cons.mp hz with rfl | hz
      · have := hbest y List.mem_cons_self
        omega
      · exact hbest z hz

theorem clampTo_zero (hi v : Nat) : clampTo 0 hi v = min hi v := by
  rw [clampTo_eq_max_min 0 hi v (Nat.zero_le _), Nat.zero_max]

/-- The stored parameters are those given up to their ranges exactly if nothing but their texts differs. -/
theorem paramsChanged_false_iff (g : Params) : paramsChanged g = false ↔ storedParams g =
    { g with text1 := (storedParams g).text1, text2 := (storedParams g).text2, text3 := (storedParams g).text3 } := by
  unfold paramsChanged
  generalize storedParams g = p
  simp only [decide_eq_false_iff_not, ne_eq, not_not]
  constructor
  · intro h
    rw [← h]
  · intro h
    rw [h]

theorem serveConfpark_eq (g : Params) (s : State) (h : s.time.day = .idle ∨ s.time.day = .after) :
    serveConfpark g s =
      if paramsWellFormed g then
        ({ s with time := { s.time with params := storedParams g } },
          .confpark (if paramsChanged g then .clamped else .done) (storedParams g))
      else (s, .confpark .malformed s.time.params) := by
  obtain ⟨hopen, hday⟩ := idle_or_after_ne h
  unfold serveConfpark
  rw [if_neg (by simp [hday, hopen])]
  rfl

/-- Settles O16: CONFPARK's three outcomes, what a text line is, and what each parameter is stored as. -/
theorem confparkTaken : Obligations.ConfparkTaken := by
  refine ⟨fun tag g s hoff => ⟨fun hd hg => ?_, fun hd hg => ?_, fun hd => ?_⟩, paramsWellFormed_iff, ?_,
    fun g p hp => hp ▸ paramsChanged_false_iff g⟩
  · refine exec_served rfl hoff (.inl (idle_or_after_ne hd).1) ?_
    rw [serve, serveConfpark_eq g s.popInput hd, if_pos hg]
    rfl
  · refine exec_served rfl hoff (.inl (idle_or_after_ne hd).1) ?_
    rw [serve, serveConfpark_eq g s.popInput hd, if_neg (by simp [hg])]
    rfl
  · refine exec_answered rfl hoff ?_
    rcases hd with hd | hd
    · rw [gateServe_pass tag _ s.popInput (.inl (day_ne_opening hd)), serve, serveConfpark,
        if_pos (show s.popInput.time.day = .day ∨ s.popInput.time.day = .opening from .inl hd)]
      rfl
    · exact gateServe_gate tag _ s.popInput .badState hd rfl
  · rintro g p rfl
    have hrange := fun lo hi v (h : lo ≤ hi) => clampTo_eq_max_min lo hi v h
    have hstep := nearest_listed g.step [1, 5, 10] (by simp) (by decide)
    have hpos : 0 < nearest g.step [1, 5, 10] := by
      rcases List.mem_cons.mp hstep.1 with h | h
      · omega
      · rcases List.mem_cons.mp h with h | h
        · omega
        · rw [List.mem_singleton.mp h]; omega
    refine ⟨hrange 1 16 _ (by omega), clampTo_zero _ _, clampTo_zero _ _, clampTo_zero _ _, hrange 3 20 _ (by omega),
      clampTo_zero _ _, clampTo_zero _ _, clampTo_zero _ _, hrange 1 4 _ (by omega), clampTo_zero _ _, clampTo_zero _ _,
      hrange 1 10 _ (by omega), clampTo_zero _ _, nearest_listed g.l _ (by simp) (by decide), hstep,
      nearest_listed g.blinkDuty _ (by simp) (by decide), Dvd.intro_left _ rfl, ?_, ?_, rfl, rfl, rfl⟩
    · rw [← hrange 30 240 _ (by omega)]
      exact Nat.div_mul_le_self _ _
    · rw [← hrange 30 240 _ (by omega)]
      exact Nat.lt_div_mul_add hpos

/-! ### The smoothing of a minute (R69) -/

/-- A rate moves toward what the minute counted by `k` sixteenths, rounded to the nearest, and stays in its range. -/
theorem smooth_eq (k s m : Nat) :
    ((smooth k s m : Nat) : Int) = max 0 (min 32767 ((s : Int) + (((8 * m : Int) - s) * k + 8).fdiv 16)) := by
  rw [Int.fdiv_eq_ediv_of_nonneg _ (by omega)]
  unfold smooth
  dsimp only
  rw [saturate_eq_min, Config.rateMax]
  omega

/-- Settles O59: the eligible minute is smoothed, the accumulators start anew, and the held minutes go on. -/
theorem smoothing : Obligations.Smoothing := by
  intro p u up forward e
  refine ⟨fun h => ?_, fun h => ?_, ?_⟩
  · simp only [Estimator.minute, h, if_true]
    exact ⟨smooth_eq _ _ _, smooth_eq _ _ _⟩
  · simp [Estimator.minute, h]
  · simp [Estimator.minute, saturate_eq_min, Config.waitMax, Bool.and_assoc]

/-! ### The poll sent (R58) -/

theorem find_first_above (last r : Nat) (hlast : last < r) : ∀ ks : List Nat, ks.Pairwise (· < ·) → r ∈ ks →
    (∀ j ∈ ks, last < j → r ≤ j) → ks.find? (last < ·) = some r
  | [], _, hr, _ => by cases hr
  | k :: ks, hrise, hr, hleast => by
    obtain ⟨hk, hrest⟩ := List.pairwise_cons.mp hrise
    by_cases hlk : last < k
    · have hrk := hleast k List.mem_cons_self hlk
      rcases List.mem_cons.mp hr with rfl | hr
      · simp [hlast]
      · have := hk r hr
        omega
    · have hr' : r ∈ ks := by
        rcases List.mem_cons.mp hr with rfl | hr
        · exact absurd hlast hlk
        · exact hr
      simp only [List.find?_cons, hlk, decide_false]
      exact find_first_above last r hlast ks hrest hr' fun j hj => hleast j (List.mem_cons_of_mem k hj)

theorem head_least (r : Nat) (ks : List Nat) (hrise : ks.Pairwise (· < ·)) (hr : r ∈ ks) (hleast : ∀ j ∈ ks, r ≤ j) :
    ks.head? = some r := by
  cases ks with
  | nil => cases hr
  | cons k ks =>
    obtain ⟨hk, -⟩ := List.pairwise_cons.mp hrise
    have hrk := hleast k List.mem_cons_self
    rcases List.mem_cons.mp hr with rfl | hr
    · rfl
    · have := hk r hr
      omega

/-- The ride polled next is the first above the last one, or the first of all. -/
theorem nextRide_eq (ks : List Nat) (last r : Nat) (hrise : ks.Pairwise (· < ·))
    (hr : (last < r ∧ r ∈ ks ∧ ∀ j ∈ ks, last < j → r ≤ j) ∨ (r ∈ ks ∧ ∀ j ∈ ks, j ≤ last ∧ r ≤ j)) :
    nextRide ks last = some r := by
  unfold nextRide
  rcases hr with ⟨hlast, hmem, hleast⟩ | ⟨hmem, hall⟩
  · rw [find_first_above last r hlast ks hrise hmem hleast]
  · have hnone : ks.find? (last < ·) = none := by
      rw [List.find?_eq_none]
      intro j hj
      have := (hall j hj).1
      simpa using this
    rw [hnone]
    exact head_least r ks hrise hmem fun j hj => (hall j hj).2

/-- Settles O50: the poll goes to the next ride in the order of numbers, around. -/
theorem pollSent : Obligations.PollSent := by
  intro s r f hline hf hwf hnext
  refine exec_next rfl ?_
  have hr : nextRide s.rides s.poller.last = some r := nextRide_eq _ _ _ hwf hnext
  have hframe : pollFrame f.address =
      [0xC3#8, BitVec.ofNat 8 f.address] ++ crcBytes [BitVec.ofNat 8 f.address] := pollFrame_eq f.address
  unfold sendPoll
  rcases hline with hline | hline <;> simp only [hline, hr, hf, hframe]

/-! ### Overrides (R132, R133) -/

theorem line_expire_eq (l : Line) :
    l.expire = if l.override.map (·.left) = some (.minutes 0) then { l with override := none } else l := by
  unfold Line.expire
  rcases l with ⟨_ | ⟨t, _ | _⟩, b, sh, lt⟩
  · rfl
  · rename_i n
    cases n <;> simp
  · rfl

/-- An update that leaves its entry as it is leaves the table as it is. -/
theorem update_eq_self {α : Type} (t : Table α) (k : Nat) (f : α → α) (h : ∀ x ∈ t, x.1 = k → f x.2 = x.2) :
    t.update k f = t := by
  induction t with
  | nil => rfl
  | cons x t ih =>
    obtain ⟨j, v⟩ := x
    have hx := h (j, v) List.mem_cons_self
    have ht := ih fun x hx => h x (List.mem_cons_of_mem _ hx)
    rw [Table.update, ht]
    split
    next hk => rw [hx hk]
    next => rfl

theorem modify_eq_set {α : Type} (xs : List α) (i : Nat) (f : α → α) (x : α) (h : xs[i]? = some x) :
    xs.modify i f = xs.set i (f x) := by
  refine List.ext_getElem? fun j => ?_
  rw [List.getElem?_modify, List.getElem?_set]
  have hi : i < xs.length := (List.getElem?_eq_some_iff.mp h).1
  by_cases hij : i = j
  · subst hij
    rw [h]
    simp [hi]
  · simp [hij]

theorem modLine_eq (b : Board) (n : Nat) (f : Line → Line) (l : Line) (hn : 1 ≤ n) (hl : b.lines[n - 1]? = some l) :
    b.modLine n f = { b with lines := b.lines.set (n - 1) (f l) } := by
  rw [Board.modLine, if_neg (by omega), modify_eq_set _ _ _ _ hl]

/-- Counting one line that is not there changes nothing, nor does counting a line that stays as it is. -/
theorem modLine_self (b : Board) (n : Nat) (f : Line → Line)
    (h : n = 0 ∨ b.lines.length < n ∨ ∀ l ∈ b.lines, f l = l) : b.modLine n f = b := by
  unfold Board.modLine
  split
  · rfl
  · have hlines : b.lines.modify (n - 1) f = b.lines := by
      cases hl : b.lines[n - 1]? with
      | none => exact List.modify_eq_self (by simpa using hl)
      | some l =>
        have hlen : n - 1 < b.lines.length := (List.getElem?_eq_some_iff.mp hl).1
        have hfl : f l = l := by
          rcases h with h | h | h
          · omega
          · omega
          · exact h l (List.mem_of_getElem? hl)
        rw [modify_eq_set _ _ _ _ hl, hfl]
        obtain ⟨hi, rfl⟩ := List.getElem?_eq_some_iff.mp hl
        exact List.set_getElem_self hi
    rw [hlines]

theorem expireOverride_self (a n : Nat) (s : State)
    (h : ∀ x ∈ s.boards.table, x.1 = a → x.2.modLine n Line.expire = x.2) : expireOverride a n s = s := by
  have htable : (s.boards.table.update a fun b => b.modLine n Line.expire) = s.boards.table := update_eq_self _ _ _ h
  rw [expireOverride, State.modBoard, htable]

/-- Settles O49: a minute counts every override down, and one with no minute left is dropped, so that none is ever
left for its own expiry. -/
theorem overridesExpire : Obligations.OverridesExpire := by
  refine ⟨?_, fun l text n h => ?_, fun l text h => ?_, fun l h => ?_, fun a n s b l hb hn hl => ?_,
    fun a n s h => exec_next rfl (expireOverride_self a n s fun x hx hxa => modLine_self _ _ _ ?_),
    fun a n s h => exec_next rfl (expireOverride_self a n s fun x hx hxa => modLine_self _ _ _ ?_)⟩
  · rintro d s t rfl
    refine ⟨rfl, Table.keys_each _ _, fun a b hb => ?_⟩
    simp [take, countOverrides, hb]
  · exact countDown_minutes h
  · exact countDown_untilReleased h
  · exact countDown_none h
  · refine ⟨_, rfl, ?_, fun j hj => ?_, rfl, rfl, rfl, rfl, rfl, rfl, rfl, rfl, rfl, rfl, rfl, rfl⟩
    · simp [expireOverride, hb, modLine_eq b n Line.expire l hn hl, line_expire_eq]
    · simp [expireOverride, Ne.symm hj]
  · rcases h with h | h
    · exact .inl h
    · exact .inr (.inl (h x hx hxa))
  · refine .inr (.inr fun l hl => line_expire_of_left l fun o m ho hm => ?_)
    exact ((h.lines x hx l hl).left o m ho hm).1

/-! ### The stale hold (R64) -/

theorem setWait_none_eq (r : Nat) (s : State) (e : Estimator) (he : s.ests.find r = some e) :
    setWait r none s = if e.wait = none then s else blinkRide r (s.modEst r fun e => { e with wait := none }) := by
  simp only [setWait, he]
  split
  · rfl
  · split
    · rename_i h
      cases h
    · rfl

/-- What blinks depends on the boards and the parameters only. -/
theorem blinkRide_boards_congr (r : Nat) {s t : State} (ht : t.time = s.time) (hb : t.boards = s.boards) :
    (blinkRide r t).boards = (blinkRide r s).boards := by
  simp only [blinkRide, ht, hb]

/-- What a ride's estimator does when it goes stale (R64). -/
theorem setStale_effect (r : Nat) (s : State) (e : Estimator) (he : s.ests.find r = some e) :
    (setStale r s).ests.find r = some { e with stale := true, wait := none } ∧ OthersKept r s.ests (setStale r s).ests ∧
    (e.wait ≠ none → (setStale r s).boards = (blinkRide r s).boards) ∧
    (e.wait = none → (setStale r s).boards = s.boards) ∧
    (setStale r s).notices = s.notices ∧ (setStale r s).port = s.port := by
  have hstale : (s.modEst r fun e => { e with stale := true }).ests.find r = some { e with stale := true } := by
    simp [he]
  rw [setStale, setWait_none_eq r _ _ hstale]
  by_cases hw : e.wait = none
  · rw [if_pos hw]
    refine ⟨?_, fun j hj => by simp [Ne.symm hj], fun h => absurd hw h, fun _ => rfl, rfl, rfl⟩
    rw [hstale, ← hw]
  · rw [if_neg hw]
    refine ⟨by simp [he], fun j hj => by simp [Ne.symm hj], fun _ => ?_, fun h => absurd h hw, by simp, by simp⟩
    exact blinkRide_boards_congr r rfl rfl

theorem staleCheck_eq (r : Nat) (s : State) (f : FieldRecord) (e : Estimator) (hf : s.poller.records.find r = some f)
    (he : s.ests.find r = some e) : staleCheck r s =
      if f.link = .lost ∧ e.stale = false ∧ s.time.params.staleHold ≤ e.staleTimer then setStale r s else s := by
  simp only [staleCheck, hf, he]

/-- Settles O48: the ride's wait is withdrawn, and its lines blink if it had one. -/
theorem staleHoldReached : Obligations.StaleHoldReached := by
  intro r s f e hf he hlost hfresh hheld
  have hstale : staleCheck r s = setStale r s := by
    rw [staleCheck_eq r s f e hf he, if_pos ⟨hlost, hfresh, hheld⟩]
  obtain ⟨hest, hothers, hblink, hstill, hnotices, hport⟩ := setStale_effect r s e he
  exact ⟨setStale r s, exec_next rfl hstale, hest, hothers, hblink, hstill, by simp, by simp, by simp, by simp, hnotices,
    hport⟩

/-! ### The start of a pass (R125, R126) -/

theorem startPass_find (s : State) (a : Nat) (b : Board) (hb : s.boards.table.find a = some b) :
    (startPass s).boards.table.find a = some { b with kind := b.kind.advance s.units } := by
  simp [startPass, hb]

theorem pane_effective_eq (units : Table RideUnit) (p : Pane) : p.effective units =
    if p.skipClosed then p.list.filter (fun r => (units.find r).map (·.state) ≠ some .closed) else p.list := by
  unfold Pane.effective
  split
  · refine List.filter_congr fun r _ => ?_
    cases units.find r <;> simp
  · rfl

theorem pane_pages_eq (p : Pane) (list : List Nat) :
    p.pages list = if list = [] then 1 else (list.length + p.rows - 1) / p.rows := by
  unfold Pane.pages
  cases list with
  | nil => rfl
  | cons x xs => simp [ceilDiv_eq]

/-- Settles O54: a pass starts when its interval is over or it is due, and each pane turns its page by its own count. -/
theorem passStarts : Obligations.PassStarts := by
  refine ⟨fun c s howed hpass hc => ?_, fun s p howed hint hpass => exec_next rfl ?_,
    fun units p q => ⟨fun _ => rfl, rfl, ?_⟩⟩
  · have hexec : exec c s = .next (startPass s) := by
      rcases hc with ⟨rfl | rfl, hint⟩ | ⟨rfl, hdue⟩
      · refine exec_next rfl ?_
        simp [intervalExpiry, State.intervalOver, howed, hint, hpass]
      · refine exec_next rfl ?_
        simp [passStartDue, State.intervalOver, howed, hint, hpass]
      · refine exec_next rfl ?_
        simp [passStartDue, howed, hdue, hpass]
    exact ⟨_, hexec, rfl, rfl, rfl, fun a b hb => startPass_find s a b hb, rfl, rfl, rfl, rfl, rfl, rfl, rfl, rfl⟩
  · simp [intervalExpiry, State.intervalOver, howed, hint, hpass]
  · rintro list count rfl rfl
    rw [← pane_effective_eq, ← pane_pages_eq]
    simp [Pane.advance, saturate_eq_min]

end Sys2Proof.Machine
end

section
/-! The requests about boards: O33 to O36. -/

namespace Sys2Proof.Machine

open Sys2Proof.Safety

/-! ### A reply enters without touching the rest of the port -/

theorem enterReply_boards (rcd : Record) (s : State) : (enterReply rcd s).boards = s.boards := by simp

theorem enterReply_notices (rcd : Record) (s : State) : (enterReply rcd s).notices = s.notices := by simp

theorem portKept_of_eq {s t : State} (h : t.port = s.port) : PortKept s t := by
  constructor <;> rw [h]

theorem portKept_trans {s t u : State} (h : PortKept s t) (k : PortKept t u) : PortKept s u :=
  ⟨k.receiver.trans h.receiver, k.input.trans h.input, k.restartPending.trans h.restartPending,
    k.crcErrors.trans h.crcErrors, k.timeouts.trans h.timeouts, k.overruns.trans h.overruns, k.sending.trans h.sending⟩

theorem portKept_enterReply {s t : State} (rcd : Record) (h : PortKept s t) : PortKept s (enterReply rcd t) :=
  portKept_trans h ⟨by simp, by simp, by simp, by simp, by simp, by simp, by simp⟩

theorem popInput_waiting {tag : Nat} {rq : Request} {s : State} (h : Offered tag rq s) :
    s.popInput.port.waiting = [] :=
  (Offered.waiting h : s.port.waiting = [])

/-- The reply of an offered request is the last record there is, once what the request did keeps no other one waiting. -/
theorem replied_of_moves {tag : Nat} {rq : Request} {s t : State} (rcd : Record) (h : Offered tag rq s)
    (ht : Moves s.popInput t) : Replied rcd (enterReply rcd t) :=
  replied_enterReply rcd t (ht.waiting_nil (popInput_waiting h))

/-! ### What becomes of the frame of a board that goes -/

/-- The frame that is out on the line of board `a` is abandoned (R140). -/
def BoardLine.abandon (a : Nat) : BoardLine → BoardLine
  | .outstanding x n => if x = a then .reserved else .outstanding x n
  | .idle => .idle
  | .reserved => .reserved

theorem abandonFrame_boards (a : Nat) (s : State) :
    (abandonFrame a s).boards = { s.boards with line := s.boards.line.abandon a } := by
  unfold abandonFrame
  split
  next b n h =>
    rw [h, BoardLine.abandon]
    split
    · rfl
    · rw [← h]
  next h => rw [h, BoardLine.abandon, ← h]
  next h => rw [h, BoardLine.abandon, ← h]

/-- Where a pass stands that is on board `a`: past its last line (R136). -/
def passedOver (a : Nat) : Option (Nat × Nat) → Option (Nat × Nat)
  | some (x, n) => if x = a then some (a, 16) else some (x, n)
  | none => none

theorem passOver_boards (a : Nat) (s : State) :
    (passOver a s).boards = { s.boards with pass := passedOver a s.boards.pass } := by
  unfold passOver
  split
  next b n h =>
    rw [h, passedOver]
    split
    · rfl
    · rw [← h]
  next h => rw [h, passedOver, ← h]

/-! ### CONFBOARD (R135 to R137) -/

/-- The two shapes of a CONFBOARD that sets a board, with the board they name. -/
def SetsBoard (s : State) (kind ride : Option Nat) (k : Kind) : Prop :=
  (∃ r u, kind = some 0 ∧ ride = some r ∧ k = .ride r ∧ s.units.find r = some u) ∨
    (kind = some 1 ∧ ride = none ∧ k = .hub Pane.fresh Pane.fresh)

theorem boardInRange_of {a : Nat} (h1 : 1 ≤ a) (h64 : a ≤ 64) : boardInRange a = true := by
  simp [boardInRange, Config.boards, h1, h64]

theorem serveConfboard_sets {a : Nat} {kind ride : Option Nat} {k : Kind} {s : State} (h1 : 1 ≤ a) (h64 : a ≤ 64)
    (hk : SetsBoard s kind ride k) :
    serveConfboard a false kind ride false s = (setBoard a k s, .confboard .done ((setBoard a k s).shownBoard a)) := by
  have hrange := boardInRange_of h1 h64
  rcases hk with ⟨r, u, rfl, rfl, rfl, hu⟩ | ⟨rfl, rfl, rfl⟩
  · simp [serveConfboard, boardOrder, State.confboardRefusal, takeConfboard, hrange, hu]
  · simp [serveConfboard, boardOrder, State.confboardRefusal, takeConfboard, hrange]

/-- What a board is after it is set as kind `k`. -/
def Board.setTo (k : Kind) (b : Board) : Board :=
  match b.kind, k with
  | .ride _, .ride r => { b with kind := .ride r }
  | .hub _ _, .hub _ _ => b
  | _, _ => { b with kind := k, lines := k.freshLines }

/-- Whether setting a board as kind `k` makes it another board, with new lines. -/
theorem setBoard_boards (a : Nat) (k : Kind) (s : State) (b : Board) (hb : s.boards.table.find a = some b) :
    (setBoard a k s).boards.table.find a = some (b.setTo k) ∧
    OthersKept a s.boards.table (setBoard a k s).boards.table ∧
    (setBoard a k s).boards.line = (if b.kind.same k then s.boards.line else s.boards.line.abandon a) ∧
    (setBoard a k s).boards.pass = s.boards.pass ∧ (setBoard a k s).boards.due = s.boards.due := by
  have hrekind : ∀ s : State, (s.modBoard a (Board.rekind k)).boards.line = s.boards.line := fun _ => rfl
  simp only [setBoard, hb]
  cases hkind : b.kind <;> cases k <;>
    simp [Kind.same, abandonFrame_boards, Board.setTo, Board.rekind, OthersKept, hb, hkind] <;>
    exact fun j hj hne => absurd hne.symm hj

theorem setBoard_keeps (a : Nat) (k : Kind) (s : State) :
    (setBoard a k s).time = s.time ∧ (setBoard a k s).units = s.units ∧ (setBoard a k s).ests = s.ests ∧
    (setBoard a k s).poller = s.poller ∧ (setBoard a k s).book = s.book ∧ (setBoard a k s).notices = s.notices ∧
    (setBoard a k s).port = s.port := by
  unfold setBoard
  split
  · exact ⟨rfl, rfl, rfl, rfl, rfl, rfl, rfl⟩
  · split
    · split <;> exact ⟨rfl, rfl, rfl, rfl, rfl, rfl, rfl⟩
    · simp

/-- Settles O33: a new board is made, a board of the same kind keeps its lines, and one of another kind starts anew. -/
theorem confboardSets : Obligations.ConfboardSets := by
  intro tag a kind ride k s hoff hd h1 h64 hk
  have hserve : serve tag (.confboard a false kind ride false) s.popInput = (setBoard a k s.popInput,
      some (.confboard .done ((setBoard a k s.popInput).shownBoard a))) :=
    congrArg answered (serveConfboard_sets (s := s.popInput) h1 h64 hk)
  obtain ⟨htime, hunits, hests, hpoller, hbook, hnotices, hport⟩ := setBoard_keeps a k s.popInput
  have hexec := exec_served (c := .confboard tag a kind ride) rfl hoff (.inl hd) hserve
  have hwait : (setBoard a k s.popInput).port.waiting = [] := by
    rw [hport]
    exact popInput_waiting hoff
  have hreply := replied_enterReply (.reply tag 18 (.confboard .done ((setBoard a k s.popInput).shownBoard a))) _ hwait
  refine ⟨_, (((s.boards.table.find a).map (Board.setTo k)).getD (Board.fresh k)), hexec, ?_⟩
  cases hb : s.boards.table.find a with
  | none =>
    have hset : setBoard a k s.popInput =
        { s.popInput with boards := { s.boards with table := s.boards.table.put a (Board.fresh k) } } := by
      simp [setBoard, hb]
    refine ⟨by simp [hset], ⟨by simp [hset], rfl⟩, fun j hj => by simp [hset, Ne.symm hj], by simp [hset], by simp [hset],
      by simp [htime], by simp [hunits], by simp [hests], by simp [hpoller], by simp [hbook], by simp [hnotices],
      portKept_enterReply _ (portKept_of_eq hport), ?_⟩
    have hshown : (setBoard a k s.popInput).shownBoard a = some (a, k) := by simp [State.shownBoard, hset, Board.fresh]
    rw [hshown] at hreply ⊢
    exact hreply
  | some b =>
    obtain ⟨hfind, hothers, hline, hpass, hdue⟩ := setBoard_boards a k s.popInput b hb
    refine ⟨by simpa using hfind, ?_, fun j hj => by simpa using hothers j hj, by simp [hpass], by simp [hdue],
      by simp [htime], by simp [hunits], by simp [hests], by simp [hpoller], by simp [hbook], by simp [hnotices],
      portKept_enterReply _ (portKept_of_eq hport), ?_⟩
    · have hline' : (enterReply (.reply tag 18 (.confboard .done ((setBoard a k s.popInput).shownBoard a)))
          (setBoard a k s.popInput)).boards.line = _ := (congrArg (·.line) (enterReply_boards _ _)).trans hline
      have habandon : ∀ l : BoardLine, l.abandon a = match l with
          | .outstanding x n => if x = a then .reserved else .outstanding x n
          | l => l := fun l => by cases l <;> rfl
      rcases b with ⟨_ | _, lines, presence, misses, last, level⟩ <;> cases k
      · exact ⟨rfl, hline'⟩
      · exact ⟨rfl, hline'.trans (habandon _)⟩
      · exact ⟨rfl, hline'.trans (habandon _)⟩
      · exact ⟨rfl, hline'⟩
    · have hshown : (setBoard a k s.popInput).shownBoard a = some (a, (b.setTo k).kind) := by
        simp [State.shownBoard, hfind]
      rw [hshown] at hreply ⊢
      exact hreply

/-- Once a board's last line number stands in the pass, the next frame goes to a board above it (R138). -/
theorem nextLine_above (t : Table Board) (a : Nat) :
    nextLine t a 16 = none ∨ ∃ x, a < x ∧ nextLine t a 16 = some (x, 1) := by
  have habove : nextLine t a 16 = (boardAbove t a).map (·, 1) := by
    unfold nextLine
    split
    next b _ =>
      have hlines : b.kind.lineCount ≤ 16 := by
        cases b.kind <;> simp [Kind.lineCount]
      rw [if_neg (by omega)]
    next => rfl
  rw [habove]
  cases hx : boardAbove t a with
  | none => exact .inl rfl
  | some x =>
    have hax : a < x := by simpa using List.find?_some hx
    exact .inr ⟨x, hax, rfl⟩

theorem removeBoard_eq (a : Nat) (s : State) (b : Board) (hb : s.boards.table.find a = some b) :
    ∃ s1, s1 = passOver a (abandonFrame a { s with boards := { s.boards with table := s.boards.table.remove a } }) ∧
    removeBoard a s = if b.level then boardGone a s1 else s1 := by
  refine ⟨_, rfl, ?_⟩
  simp only [removeBoard, hb]

/-- Settles O34: a removed board's frame is abandoned, its notice falls, and the pass goes on above it. -/
theorem confboardRemoves : Obligations.ConfboardRemoves := by
  intro tag a s b hoff hd h1 h64 hb
  obtain ⟨s1, hs1, hremove⟩ := removeBoard_eq a s.popInput b hb
  have hshown : (removeBoard a s.popInput).shownBoard a = none := by
    rw [hremove, hs1]
    split <;> simp [State.shownBoard, passOver_boards, abandonFrame_boards]
  have hserve : serve tag (.confboard a true none none false) s.popInput =
      (removeBoard a s.popInput, some (.confboard .done none)) := by
    have hrange := boardInRange_of h1 h64
    simp [serve, answered, serveConfboard, boardOrder, State.confboardRefusal, takeConfboard, hrange, hb, hshown]
  have hboards : (removeBoard a s.popInput).boards = { s.boards with
      table := s.boards.table.remove a
      line := s.boards.line.abandon a
      pass := passedOver a s.boards.pass } := by
    rw [hremove, hs1]
    split <;> simp [passOver_boards, abandonFrame_boards]
  have himage : b.level = true → ((removeBoard a s.popInput).slot ⟨.board, a⟩).image = false := by
    intro hlevel
    rw [hremove, if_pos hlevel, boardGone, reportLevel_image, if_pos rfl]
  have hnotices : b.level = false → (removeBoard a s.popInput).notices = s.notices := by
    intro hlevel
    rw [hremove, if_neg (by simp [hlevel]), hs1]
    simp
  have hkeeps : (removeBoard a s.popInput).time = s.time ∧ (removeBoard a s.popInput).units = s.units ∧
      (removeBoard a s.popInput).ests = s.ests ∧ (removeBoard a s.popInput).poller = s.poller ∧
      (removeBoard a s.popInput).book = s.book ∧ PortKept s.popInput (removeBoard a s.popInput) := by
    rw [hremove, hs1]
    split
    · exact ⟨by simp, by simp, by simp, by simp, by simp, by constructor <;> simp⟩
    · exact ⟨by simp, by simp, by simp, by simp, by simp, by constructor <;> simp⟩
  obtain ⟨htime, hunits, hests, hpoller, hbook, hport⟩ := hkeeps
  refine ⟨_, exec_served rfl hoff (.inl hd) hserve, by simp [hboards], fun j hj => by simp [hboards, Ne.symm hj], ?_,
    fun h => ?_, fun h => by simp [hnotices h], ?_, fun later => nextLine_above later a, by simp [htime], by simp [hunits],
    by simp [hests], by simp [hpoller], by simp [hbook], portKept_enterReply _ hport,
    replied_of_moves _ hoff (moves_removeBoard a _)⟩
  · rw [enterReply_boards, hboards]
    change s.boards.line.abandon a = _
    generalize s.boards.line = l
    cases l <;> rfl
  · rw [slot_congr (congrArg (·.slots) (enterReply_notices _ _))]
    exact himage h
  · rw [enterReply_boards, hboards]
    change passedOver a s.boards.pass = _
    generalize s.boards.pass = p
    rcases p with _ | ⟨x, n⟩ <;> rfl

/-! ### CONFPANE (R141) -/

theorem clampTo_one_eq (hi v : Nat) (h : 1 ≤ hi) : clampTo 1 hi v = max 1 (min hi v) := clampTo_eq_max_min 1 hi v h

/-- Settles O35: the pane is replaced whole, and it starts at its first page. -/
theorem confpaneReplaces : Obligations.ConfpaneReplaces := by
  intro tag a n list rows pp fit skip p q b s new hoff hd hn hfit hlen hdistinct hb hkind hrides hnew
  obtain ⟨f, hf, hfnew⟩ : ∃ f, Fit.ofNumber fit = some f ∧ new.fit = f := by
    rcases Nat.le_one_iff_eq_zero_or_eq_one.mp hfit with rfl | rfl
    · exact ⟨.fullFirst, rfl, by rw [hnew]; rfl⟩
    · exact ⟨.shortFirst, rfl, by rw [hnew]; rfl⟩
  let o : PaneOps := { list := list, rows := rows, pagePasses := pp, skipClosed := skip, fit := fit }
  have hpane : o.pane f = new := by
    subst hfnew
    rw [hnew]
    simp [o, PaneOps.pane, clampTo_one_eq]
  have hclamped : doneOr o.clamped = if new.rows = rows ∧ new.pagePasses = pp then .done else .clamped := by
    rw [hnew]
    simp only [o, PaneOps.clamped, clampTo_one_eq 8 _ (by omega), clampTo_one_eq 255 _ (by omega), doneOr]
    by_cases hr : max 1 (min 8 rows) = rows <;> by_cases hp : max 1 (min 255 pp) = pp <;> simp [hr, hp]
  have hset : ∃ u, b.kind.pane? n = some u ∧ b.kind.setPane new n = if n = 1 then .hub new q else .hub p new := by
    rcases hn with rfl | rfl
    · exact ⟨p, by simp [hkind, Kind.pane?], by simp [hkind, Kind.setPane]⟩
    · exact ⟨q, by simp [hkind, Kind.pane?], by simp [hkind, Kind.setPane]⟩
  obtain ⟨u, hu, hset⟩ := hset
  have hserve : serve tag (.confpane a n list rows pp skip fit false) s.popInput =
      (s.popInput.modBoard a fun b => { b with kind := b.kind.setPane new n },
        some (.confpane (if new.rows = rows ∧ new.pagePasses = pp then .done else .clamped) a n (some new))) := by
    have hknown : (list.any fun r => (s.units.find r).isNone) = false := by
      rw [List.any_eq_false]
      intro r hr
      simpa [Option.isSome_iff_ne_none] using hrides r hr
    have hshape : (false || !(n = 1 || n = 2) || 24 < o.list.length || !distinct o.list) = false := by
      rcases hn with rfl | rfl <;> simp [o, hlen, hdistinct]
    have hserved : serveConfpane a n o false s.popInput =
        (s.popInput.modBoard a fun b => { b with kind := b.kind.setPane (o.pane f) n },
          .confpane (doneOr o.clamped) a n (some (o.pane f))) := by
      unfold serveConfpane
      rw [show Fit.ofNumber o.fit = some f from hf]
      dsimp only
      rw [if_neg (by simpa using hshape), show s.popInput.boards.table.find a = some b from hb]
      dsimp only
      rw [hu, if_neg (by simp), if_neg (by simpa [o] using hknown)]
    rw [← hclamped, ← hpane]
    exact congrArg answered hserved
  refine ⟨_, exec_served rfl hoff (.inl hd) hserve, by simp [hb, hset], fun j hj => by simp [Ne.symm hj], by simp, by simp,
    by simp, by simp, by simp, by simp, by simp, by simp, portKept_enterReply _ (portKept_of_eq rfl),
    replied_enterReply _ _ (popInput_waiting hoff)⟩

/-! ### BOARDTEXT (R142) -/

/-- BOARDTEXT on a line that the board has. -/
theorem serveBoardtext_taken {a n : Nat} {o : TextOps} {s : State} {b : Board} {l : Line} (ho : o.malformed = false)
    (hb : s.boards.table.find a = some b) (hn : 1 ≤ n) (hcount : n ≤ b.kind.lineCount) (hl : b.lines[n - 1]? = some l) :
    serveBoardtext a n o false s =
      (s.modBoard a fun b => b.modLine n (Line.takeText o s.time.params.blinkPasses),
        .boardtext (doneOr (o.action = 0 && Config.overrideMax < o.duration)) a n
          (l.takeText o s.time.params.blinkPasses).override) := by
  have hrange : ¬(n = 0 ∨ b.kind.lineCount < n) := by omega
  have hlen : n - 1 < b.lines.length := (List.getElem?_eq_some_iff.mp hl).1
  unfold serveBoardtext
  rw [if_neg (by simp [ho]), hb]
  dsimp only
  rw [if_neg hrange]
  simp [State.shownOverride, hb, modLine_eq b n _ l hn hl, Board.line?, show n ≠ 0 by omega, hlen]

theorem leftOf_eq (d : Nat) : leftOf d = if d = 0 then .untilReleased else .minutes (min 1440 d) := by
  simp only [leftOf, saturate_eq_min, Config.overrideMax]

theorem fillTo_twenty (t : Text) : fillTo Config.lineWidth t = t ++ List.replicate (20 - t.length) 0x20#8 := rfl

/-- Settles O36: a text is set on its line, or released from it. -/
theorem boardtextTakes : Obligations.BoardtextTakes := by
  intro tag a n s b l hb hn hl hcount
  refine ⟨fun text d blink hoff hlen hprint => ?_, fun hoff => ?_⟩
  · have ho : TextOps.malformed { action := 0, text := text, duration := d, blink := blink } = false := by
      have hshort : ¬Config.lineWidth < text.length := Nat.not_lt.mpr hlen
      simp [TextOps.malformed, hprint, hshort]
    have hserve := congrArg answered (serveBoardtext_taken (s := s.popInput) ho hb hn hcount hl)
    refine ⟨_, exec_served rfl hoff (.inr rfl) hserve, ?_, ?_, fun j hj => by simp [Ne.symm hj], by simp, by simp, by simp,
      by simp, by simp, by simp, by simp, portKept_enterReply _ (portKept_of_eq rfl)⟩
    · have hcode : doneOr (decide ((0 : Nat) = 0) && decide (Config.overrideMax < d)) =
          if 1440 < d then .clamped else .done := by
        by_cases hd : 1440 < d <;> simp [doneOr, Config.overrideMax, hd]
      rw [← hcode, ← leftOf_eq, ← fillTo_twenty]
      exact replied_enterReply _ _ (popInput_waiting hoff)
    · simp [hb, modLine_eq b n _ l hn hl, Line.takeText, Line.set, leftOf_eq, fillTo_twenty]
  · have ho : TextOps.malformed { action := 1, text := [], duration := 0, blink := false } = false := by
      simp [TextOps.malformed, Config.lineWidth, printable]
    have hserve := congrArg answered (serveBoardtext_taken (s := s.popInput) ho hb hn hcount hl)
    refine ⟨_, exec_served rfl hoff (.inr rfl) hserve, ?_, fun j hj => by simp [Ne.symm hj], by simp, by simp, by simp,
      by simp, by simp, by simp, by simp, portKept_enterReply _ (portKept_of_eq rfl),
      replied_enterReply _ _ (popInput_waiting hoff)⟩
    simp [hb, modLine_eq b n _ l hn hl, Line.takeText]

end Sys2Proof.Machine
end

section
/-! The output of records, the places they share, restarts and frames received: O39, O42, O43, O45. -/

namespace Sys2Proof.Machine

open Sys2Proof.Safety

/-! ### What one grant does (R176) -/

/-- A grant to a waiting reply: its turn is over if notices wait as well. -/
theorem grantPlace_toReply {s : State} {w : Record} {ws : List Record} (hp : s.port.output.length < 32)
    (hw : s.port.waiting = w :: ws) (ht : s.notices.sendList = [] ∨ s.port.noticesLast = true) :
    grantPlace s = { s with port := { s.port with
      output := s.port.output ++ [w], waiting := ws
      noticesLast := if s.notices.sendList = [] then s.port.noticesLast else false } } := by
  have hp := (hasPlace_iff s).mpr hp
  by_cases hl : s.notices.sendList = []
  · rw [grantPlace_reply s hp hl, grantReply, hw, if_pos hl]
  · have hlast := ht.resolve_left hl
    rw [grantPlace_contested s hp (by simp [hw]) hl, if_pos hlast]
    simp only [grantReply, hw, if_neg hl]

/-- A grant to the notice at the head of the send list. -/
theorem grantPlace_toNotice {s : State} {id : SlotId} {ids : List SlotId} {l : Latched}
    (hp : s.port.output.length < 32) (hl : s.notices.sendList = id :: ids) (hpend : (s.slot id).pending = some l)
    (ht : s.port.waiting = [] ∨ s.port.noticesLast = false) :
    grantPlace s = { s with
      notices := { (s.setSlot id { s.slot id with sent := true }).notices with sendList := ids }
      port := { s.port with
        output := s.port.output ++ [.notice id l]
        noticesLast := if s.port.waiting = [] then s.port.noticesLast else true } } := by
  have hp := (hasPlace_iff s).mpr hp
  by_cases hw : s.port.waiting = []
  · rw [grantPlace_notice s hp hw, grantNotice, hl]
    simp only [hpend, if_pos hw]
    rfl
  · have hlast := ht.resolve_left hw
    have hslot : State.slot { s with port := { s.port with noticesLast := true } } id = s.slot id := rfl
    rw [grantPlace_contested s hp hw (by simp [hl]), if_neg (by simp [hlast])]
    simp only [grantNotice, hl, hslot, hpend, if_neg hw]
    rfl

theorem grantReply_noticesLast (s : State) : (grantReply s).port.noticesLast = s.port.noticesLast := by
  unfold grantReply
  split <;> rfl

theorem grantNotice_noticesLast (s : State) : (grantNotice s).port.noticesLast = s.port.noticesLast := by
  unfold grantNotice
  split
  · rfl
  · dsimp only
    split <;> rfl

/-- Whose turn is next changes only when both a reply and a notice wait for the place. -/
theorem grantPlace_noticesLast (s : State) : (grantPlace s).port.noticesLast =
    if s.port.output.length < 32 ∧ s.port.waiting ≠ [] ∧ s.notices.sendList ≠ [] then !s.port.noticesLast
    else s.port.noticesLast := by
  by_cases hp : s.port.output.length < 32
  · have hplace := (hasPlace_iff s).mpr hp
    by_cases hw : s.port.waiting = []
    · rw [grantPlace_notice s hplace hw, grantNotice_noticesLast]
      simp [hw]
    · by_cases hl : s.notices.sendList = []
      · rw [grantPlace_reply s hplace hl, grantReply_noticesLast]
        simp [hl]
      · have hboth : s.port.output.length < 32 ∧ s.port.waiting ≠ [] ∧ s.notices.sendList ≠ [] := ⟨hp, hw, hl⟩
        rw [grantPlace_contested s hplace hw hl, if_pos hboth]
        cases hlast : s.port.noticesLast
        · simp [grantNotice_noticesLast]
        · simp [grantReply_noticesLast]
  · have hplace : s.hasPlace = false := Bool.eq_false_iff.mpr fun h => hp ((hasPlace_iff s).mp h)
    rw [grantPlace_full s hplace, if_neg (fun h => hp h.1)]

theorem sendRecord_eq {s : State} {rcd : Record} {rest : List Record} (hdue : s.restartDue = none)
    (ho : s.port.output = rcd :: rest) :
    sendRecord s = grantPlace { s with port := { s.port with output := rest, sending := some rcd } } := by
  simp only [sendRecord, hdue, Option.isSome_none, Bool.false_eq_true, if_false, ho]

/-- Settles O42: the first record goes out, and its place goes to the next that waits. -/
theorem recordSent : Obligations.RecordSent := by
  intro s rcd rest hdue ho
  refine ⟨_, exec_next rfl (sendRecord_eq hdue ho), by simp, fun hw hl => ?_, fun w ws hw hp ht => ?_,
    fun id ids l hl hpend hp ht => ?_, by simp, by simp, by simp, by simp, by simp, by simp, by simp⟩
  · exact grantPlace_idle _ hw hl
  · rw [grantPlace_toReply (s := { s with port := { s.port with output := rest, sending := some rcd } }) hp hw ht]
    exact ⟨rfl, rfl, rfl, rfl⟩
  · rw [grantPlace_toNotice (s := { s with port := { s.port with output := rest, sending := some rcd } }) hp hl hpend ht]
    refine ⟨rfl, rfl, rfl, ?_, rfl⟩
    exact (slot_setSlot s id id _).trans (if_pos rfl)

theorem grantToReply_eq {s : State} (hw : s.port.waiting ≠ []) (ht : s.notices.sendList = [] ∨ s.port.noticesLast = true) :
    grantToReply s = grantPlace s := by
  rw [grantToReply, if_pos ⟨hw, ht⟩]

theorem grantToNotice_eq {s : State} (hl : s.notices.sendList ≠ [])
    (ht : s.port.waiting = [] ∨ s.port.noticesLast = false) : grantToNotice s = grantPlace s := by
  rw [grantToNotice, if_pos ⟨hl, ht.imp id (by simp)⟩]

theorem warmBoards_port (s : State) : (warmBoards s).port = s.port := by
  unfold warmBoards
  dsimp only
  split
  · rfl
  · simp

theorem takeRestart_noticesLast {s : State} (h : s.restartDue ≠ none) : (takeRestart s).port.noticesLast = true := by
  unfold takeRestart
  split
  · rfl
  · rw [resetWarm_eq, warmBoards_port]
    rfl
  next hnone => exact absurd hnone h

/-- Settles O43: replies and notices take turns for the places they both wait for, a notice being the last at a reset. -/
theorem placesAreArbitrated : Obligations.PlacesAreArbitrated := by
  refine ⟨rfl, fun s t hdue ht => ?_, fun s t rcd rest hdue ho ht => ?_, fun s w ws id ids l hp =>
    ⟨fun hw hl => exec_next rfl ?_, fun hw hl hlast => exec_next rfl ?_, fun hl hpend ht => ?_⟩⟩
  · cases ht
    exact takeRestart_noticesLast hdue
  · cases ht
    rw [sendRecord_eq hdue ho]
    exact grantPlace_noticesLast _
  · rw [grantToReply_eq (by simp [hw]) (.inl hl), grantPlace_toReply hp hw (.inl hl), if_pos hl]
  · rw [grantToReply_eq (by simp [hw]) (.inr hlast), grantPlace_toReply hp hw (.inr hlast), if_neg hl]
  · have hgrant := (grantToNotice_eq (by simp [hl]) ht).trans (grantPlace_toNotice hp hl hpend ht)
    refine ⟨_, exec_next rfl hgrant, rfl, rfl, ?_, fun j hj => ?_, by simp, rfl, rfl, rfl, rfl, rfl, rfl⟩
    · exact (slot_setSlot s id id _).trans (if_pos rfl)
    · exact (slot_setSlot s id j _).trans (if_neg (Ne.symm hj))

/-! ### A frame received whole (R168) -/

/-- A latched slot stays latched, and one that was not is latched now (R163). -/
theorem setPending_pending_isSome (id : SlotId) (level : Bool) (detail : Nat) (s : State) :
    ((setPending id level detail s).slot id).pending.isSome = true := by
  cases hpend : (s.slot id).pending with
  | some l =>
    rw [setPending_pending id level detail s (by simp [hpend]), hpend]
    rfl
  | none =>
    cases hmask : (s.slot id).mask with
    | true => simp [setPending_masked id level detail s hpend hmask]
    | false =>
      rw [setPending_unmasked id level detail s hpend hmask, (joinSendList_slot id _ id).1]
      simp

theorem reportEvent_pending (cls : NoteClass) (src detail : Nat) (s : State) :
    ((reportEvent cls src detail s).slot ⟨cls, src⟩).pending.isSome = true := setPending_pending_isSome _ _ _ _

/-- The body is gathered byte by byte until its length is there. -/
theorem receiveByte_body (s : State) (n : Nat) (got : List Byte) (b : Byte) (h : s.port.receiver = .body n got) :
    receiveByte s b = s.setReceiver (if got.length + 1 < n then .body n (got ++ [b]) else .check n (got ++ [b]) []) := by
  simp only [receiveByte, h, List.length_append, List.length_singleton]
  split <;> rfl

theorem setReceiver_setReceiver (u v : Receiver) (s : State) : (s.setReceiver u).setReceiver v = s.setReceiver v := rfl

theorem receive_body (n : Nat) : ∀ (bs : List Byte) (s : State) (got : List Byte), s.port.receiver = .body n got →
    got.length + bs.length = n → bs ≠ [] → bs.foldl receiveByte s = s.setReceiver (.check n (got ++ bs) [])
  | [], _, _, _, _, h => absurd rfl h
  | [b], s, got, h, hlen, _ => by
    simp only [List.length_singleton] at hlen
    rw [List.foldl_cons, List.foldl_nil, receiveByte_body s n got b h, if_neg (by omega)]
  | b :: c :: bs, s, got, h, hlen, _ => by
    simp only [List.length_cons] at hlen
    rw [List.foldl_cons, receiveByte_body s n got b h, if_pos (by omega),
      receive_body n (c :: bs) _ (got ++ [b]) rfl (by simp; omega) (by simp), setReceiver_setReceiver, List.append_assoc,
      List.singleton_append]

/-- The bytes of a frame of operations, in the order they are sent. -/
theorem opsFrame_bytes (tag cls : Nat) (params : List Byte) :
    opsFrame tag cls params =
      0x5A#8 :: BitVec.ofNat 8 ((params.length + 2) / 256) :: BitVec.ofNat 8 (params.length + 2) ::
        ((BitVec.ofNat 8 tag :: BitVec.ofNat 8 cls :: params) ++
          crcBytes (putNum 2 (params.length + 2) ++ (BitVec.ofNat 8 tag :: BitVec.ofNat 8 cls :: params))) := by
  simp [opsFrame, putNum]

theorem receive_length (n : Nat) (s : State) (h : s.port.receiver = .header []) (h2 : 2 ≤ n) (hmax : n ≤ 1000) :
    receiveByte (receiveByte s (BitVec.ofNat 8 (n / 256))) (BitVec.ofNat 8 n) = s.setReceiver (.body n []) := by
  have hvalue : (BitVec.ofNat 8 (n / 256)).toNat * 256 + (BitVec.ofNat 8 n).toNat = n := by
    simp only [BitVec.toNat_ofNat]
    omega
  rw [receiveByte_header_first s _ h, receiveByte_header_second _ _ _ rfl, hvalue, if_pos ⟨h2, hmax⟩]
  rfl

/-- The two check bytes judge the frame. -/
theorem receive_check (n : Nat) (body : List Byte) (hi lo : Byte) (s : State) (h : s.port.receiver = .check n body []) :
    [hi, lo].foldl receiveByte s = judgeFrame n body [hi, lo] (s.setReceiver (.check n body [hi])) := by
  rw [List.foldl_cons, receiveByte_check_first s n body hi h, List.foldl_cons, List.foldl_nil,
    receiveByte_check_second _ n body hi lo rfl]

theorem frameOf_bytes {tag cls : Nat} (params : List Byte) (ht : tag < 256) (hc : cls < 256) :
    frameOf (BitVec.ofNat 8 tag :: BitVec.ofNat 8 cls :: params) = { tag := tag, cls := cls, params := params } := by
  simp [frameOf, Nat.mod_eq_of_lt ht, Nat.mod_eq_of_lt hc]

/-- A receiver at rest takes a whole frame and hands it over. -/
theorem receiveBytes_opsFrame {tag cls : Nat} {params : List Byte} {s : State} (ht : tag < 256) (hc : cls < 256)
    (hlen : params.length ≤ 998) (h : s.port.receiver = .hunt) :
    receiveBytes (opsFrame tag cls params) s =
      acceptFrame { tag := tag, cls := cls, params := params } (s.setReceiver .hunt) := by
  have hbody := receive_body (params.length + 2) (BitVec.ofNat 8 tag :: BitVec.ofNat 8 cls :: params)
    (s.setReceiver (.body (params.length + 2) [])) [] rfl (by simp) (by simp)
  rw [opsFrame_bytes, receiveBytes, List.foldl_cons, receiveByte_hunt s h, List.foldl_cons, List.foldl_cons,
    receive_length _ _ rfl (by omega) (by omega), setReceiver_setReceiver, List.foldl_append, hbody, List.nil_append,
    crcBytes, receive_check _ _ _ _ _ rfl, judgeFrame, if_pos, frameOf_bytes params ht hc] <;> rfl

theorem setReceiver_self {v : Receiver} {s : State} (h : s.port.receiver = v) : s.setReceiver v = s := by
  subst h
  rfl

/-- Settles O39: a frame that the part itself could send is received whole, or counted as an overrun. -/
theorem frameRoundTrip : Obligations.FrameRoundTrip := by
  intro tag cls params s ht hc hlen h
  have hframe := (receiveBytes_opsFrame ht hc hlen h).trans (congrArg _ (setReceiver_self h))
  refine ⟨_, exec_next rfl hframe, ?_, fun hroom => ?_, fun hfull => ?_⟩
  · unfold acceptFrame
    split
    · exact h
    · simpa using h
  · rw [acceptFrame, if_pos (show s.port.input.length < Config.inputPlaces from hroom)]
  · rw [acceptFrame, if_neg (show ¬s.port.input.length < Config.inputPlaces from Nat.not_lt.mpr hfull)]
    refine ⟨by simp, ?_, reportEvent_pending _ _ _ _, by simp, by simp, by simp, by simp, by simp, by simp⟩
    simp [countUp_eq]

/-! ### A restart takes effect (R6, R181) -/

theorem find_filter_of_wf {α : Type} (p : Nat × α → Bool) (k : Nat) : ∀ t : Table α, t.wf →
    Table.find (t.filter p) k = (Table.find t k).filter fun v => p (k, v)
  | [], _ => rfl
  | (j, v) :: t, h => by
    have htail : Table.wf t := (List.pairwise_cons.mp h).2
    have hrest := find_filter_of_wf p k t htail
    by_cases hj : j = k
    · subst hj
      have hnone : Table.find t j = none := by
        cases hf : Table.find t j with
        | none => rfl
        | some w =>
          have hmem : j ∈ Table.keys t := Table.key_mem t (j, w) (Table.mem_of_find t j w hf)
          exact absurd ((List.pairwise_cons.mp h).1 j hmem) (lt_irrefl j)
      rw [hnone] at hrest
      by_cases hp : p (j, v) = true
      · simp [hp, Table.find, Option.filter_some]
      · simpa [hp, Table.find, Option.filter_some] using hrest
    · by_cases hp : p (j, v) = true
      · simpa [List.filter_cons, hp, Table.find, hj] using hrest
      · simpa [List.filter_cons, hp, Table.find, hj] using hrest

/-- A warm restart drops what is latched and keeps every mask and image. -/
theorem warm_slot (s : State) (hwf : s.notices.slots.wf) (id : SlotId) :
    ((warmNotices s.notices).slots.find id.key).getD Slot.reset = { s.slot id with pending := none, sent := false } := by
  have hfind := find_filter_of_wf (fun x : Nat × Slot => decide (x.2 ≠ Slot.reset)) id.key
    (s.notices.slots.each fun _ v => v.warm) ((Table.wf_each _ _).mpr hwf)
  have hwarm : (warmNotices s.notices).slots.find id.key = _ := hfind
  rw [hwarm, Table.find_each, State.slot]
  cases s.notices.slots.find id.key with
  | none => rfl
  | some v =>
    change (Option.filter _ (some v.warm)).getD Slot.reset = v.warm
    rw [Option.filter_some]
    by_cases hv : v.warm = Slot.reset
    · rw [if_neg (by simp [hv])]
      exact hv.symm
    · rw [if_pos (by simp [hv])]
      rfl

theorem frameOutstanding_iff (s : State) : s.frameOutstanding = true ↔ ∃ a n, s.boards.line = .outstanding a n := by
  unfold State.frameOutstanding
  cases s.boards.line <;> simp

theorem restartDue_eq {s : State} {tag kind clock : Nat} {cs : ClockState} {d : DayState}
    (h : s.port.sending = some (.reply tag 26 (.restart .done kind clock cs d))) :
    s.restartDue = s.port.restartPending := by
  rw [State.restartDue, h]
  rfl

/-- A warm restart up to the pass it starts, which waits for the frame that is out. -/
def warmUpToPass (s : State) : State :=
  { warmParts s with
    notices := warmNotices s.notices
    port := Port.reset
    boards := { s.boards with
      table := s.boards.table.each fun _ b => b.warm
      timer := 0, due := false, pass := none, startOwed := s.frameOutstanding
      line := if s.frameOutstanding then .reserved else s.boards.line } }

theorem resetWarm_pass (s : State) :
    resetWarm s = if s.frameOutstanding then warmUpToPass s else startPass (warmUpToPass s) := rfl

theorem resetWarm_boards (s : State) :
    (resetWarm s).boards.sent = s.boards.sent ∧ (resetWarm s).boards.due = false ∧ (resetWarm s).boards.timer = 0 ∧
    (∀ a, (resetWarm s).boards.table.find a = (s.boards.table.find a).map fun b =>
      if s.frameOutstanding then b.warm else { b.warm with kind := b.warm.kind.advance (resetWarm s).units }) ∧
    (s.frameOutstanding = true → (resetWarm s).boards.line = .reserved ∧ (resetWarm s).boards.pass = none ∧
      (resetWarm s).boards.startOwed = true) ∧
    (s.frameOutstanding = false → (resetWarm s).boards.line = s.boards.line ∧ (resetWarm s).boards.startOwed = false ∧
      (resetWarm s).boards.pass = if s.boards.table.isEmpty then none else some (0, 0)) := by
  have hempty : (s.boards.table.each fun _ b => b.warm).isEmpty = s.boards.table.isEmpty := by
    cases s.boards.table <;> rfl
  rw [resetWarm_pass]
  cases hf : s.frameOutstanding with
  | true =>
    refine ⟨rfl, rfl, rfl, fun a => ?_, fun _ => ⟨?_, rfl, hf⟩, nofun⟩
    · simp [warmUpToPass]
    · simp [warmUpToPass, hf]
  | false =>
    refine ⟨rfl, rfl, rfl, fun a => ?_, nofun, fun _ => ⟨?_, rfl, ?_⟩⟩
    · simp [startPass, warmUpToPass, Option.map_map, Function.comp_def]
    · simp [startPass, warmUpToPass, hf]
    · simp [startPass, warmUpToPass, hempty]

/-- A warm restart keeps everything but the boards as its parts say. -/
theorem resetWarm_rest (s : State) :
    (resetWarm s).time = warmTime s.time ∧ (resetWarm s).units = (s.units.each fun _ u => u.warm) ∧
    (resetWarm s).poller = warmPoller s.poller ∧ (resetWarm s).ests = warmEstimators s.ests ∧
    (resetWarm s).book = s.book ∧ (resetWarm s).notices = warmNotices s.notices ∧ (resetWarm s).port = Port.reset := by
  rw [resetWarm_pass]
  split <;> exact ⟨rfl, rfl, rfl, rfl, rfl, rfl, rfl⟩

/-- Settles O45: a cold restart is POWER ON, a warm one keeps the configuration, the book and the images. -/
theorem restartTakesEffect : Obligations.RestartTakesEffect := by
  intro s tag kind clock cs d hsend hwf
  have hdue := restartDue_eq hsend
  refine ⟨fun hcold => exec_next rfl ?_, fun hwarm => ?_⟩
  · rw [takeRestart, hdue, hcold]
  · have htake : takeRestart s = resetWarm s := by rw [takeRestart, hdue, hwarm]
    obtain ⟨htime, hunits, hpoller, hests, hbook, hnotices, hport⟩ := resetWarm_rest s
    obtain ⟨hsent, hboardsDue, htimer, hfind, hout, hidle⟩ := resetWarm_boards s
    refine ⟨_, exec_next rfl htake, htime, fun r => by simp [hunits]; rfl, fun r => by simp [hpoller, warmPoller]; rfl,
      by simp [hpoller, warmPoller], fun h => by simp [hpoller, warmPoller, h], fun h => ?_,
      fun r => by simp [hests, warmEstimators], hbook, fun a b hb => ?_, fun a ha => by simp [hfind, ha], hboardsDue,
      htimer, fun a n hl => hout ((frameOutstanding_iff s).mpr ⟨a, n, hl⟩), fun hl => ?_, hsent,
      by simp [hpoller, warmPoller], fun id => ?_, by simp [hnotices, warmNotices], by simp [hnotices, warmNotices],
      hport⟩
    · cases hl : s.poller.line with
      | idle => exact absurd hl h
      | outstanding | reserved => simp [hpoller, warmPoller, hl]
    · have hwarmKind : b.warm.kind = match b.kind with
          | .ride r => .ride r
          | .hub p q => .hub { p with page := 0, pageCount := 0 } { q with page := 0, pageCount := 0 } := by
        simp only [Board.warm]
        cases b.kind <;> rfl
      refine ⟨_, (hfind a).trans (congrArg (Option.map _) hb), ?_⟩
      by_cases hf : s.frameOutstanding = true
      · simp only [hf, if_true]
        refine ⟨rfl, rfl, rfl, rfl, rfl, fun k hk => ⟨fun _ => hwarmKind.trans hk.symm, fun h => ?_⟩⟩
        exact absurd ((frameOutstanding_iff s).mp hf) h
      · simp only [hf]
        refine ⟨rfl, rfl, rfl, rfl, rfl, fun k hk => ⟨fun h => absurd ((frameOutstanding_iff s).mpr h) hf, fun _ => ?_⟩⟩
        rw [hk.trans hwarmKind.symm]
        rfl
    · have hf : s.frameOutstanding = false := by
        rw [← Bool.not_eq_true]
        exact fun hf => hl ((frameOutstanding_iff s).mp hf)
      exact hidle hf
    · rw [State.slot, hnotices]
      exact warm_slot s hwf id

end Sys2Proof.Machine
end

section
/-! The notices: what CONFNOTE and CLEARNOTE do, and how a slot is latched: O37, O38. -/

namespace Sys2Proof.Machine

open Sys2Proof.Safety

/-! ### CLEARNOTE (R166) -/

theorem foldl_entries (es : List ClearEntry) (x : State × Nat) :
    es.foldl (fun x e => (coveredSlots e.cls e.src).foldl clearSlot x) x =
      (es.flatMap fun e => coveredSlots e.cls e.src).foldl clearSlot x := by
  induction es generalizing x with
  | nil => rfl
  | cons e es ih => simp only [List.foldl_cons, List.flatMap_cons, List.foldl_append, ih]

/-- A list without repetition is counted as its set is. -/
theorem countP_eq_card {ids covered : List SlotId} (p : SlotId → Bool) (hmem : ∀ id, id ∈ covered ↔ id ∈ ids)
    (hnodup : covered.Nodup) : (ids.toFinset.filter fun id => p id = true).card = covered.countP p := by
  have hset : ids.toFinset = covered.toFinset := by
    ext id
    simp [hmem]
  rw [hset, ← List.toFinset_filter, List.toFinset_card_of_nodup (hnodup.filter _), List.countP_eq_length_filter]

theorem serveClearnote_taken {es : List ClearEntry} {s : State} (hlen : es.length ≤ 64)
    (hes : ∀ e ∈ es, noteTarget e.cls e.src = true) :
    serveClearnote es s = (((es.flatMap fun e => coveredSlots e.cls e.src).foldl clearSlot (s, 0)).1,
      .clearnote .done ((es.flatMap fun e => coveredSlots e.cls e.src).foldl clearSlot (s, 0)).2) := by
  have hall : (es.all fun e => noteTarget e.cls e.src) = true := List.all_eq_true.mpr hes
  have hlong : ¬Config.noteEntries < es.length := Nat.not_lt.mpr hlen
  simp only [serveClearnote, hall, hlong, decide_false, Bool.not_true, Bool.or_self, Bool.false_eq_true, if_false,
    foldl_entries]

theorem serveClearnote_refused {es : List ClearEntry} {s : State}
    (h : 64 < es.length ∨ ∃ e ∈ es, noteTarget e.cls e.src = false) :
    serveClearnote es s = (s, .clearnote .malformed 0) := by
  unfold serveClearnote
  rw [if_pos]
  rcases h with h | ⟨e, he, hbad⟩
  · simp [Config.noteEntries, h]
  · have hall : (es.all fun e => noteTarget e.cls e.src) = false := by
      rw [List.all_eq_false]
      exact ⟨e, he, by simp [hbad]⟩
    simp [hall]

/-- Settles O38: each pending slot that is covered is cleared once, however often it is named. -/
theorem clearnoteClears : Obligations.ClearnoteClears := by
  refine ⟨fun tag es s covered hoff hcovered hnodup => ⟨fun hlen hes => ?_, fun h => ?_⟩, noteTarget_iff⟩
  · let ids := es.flatMap fun e => coveredSlots e.cls e.src
    have hmem : ∀ id, id ∈ covered ↔ id ∈ ids := by
      intro id
      rw [hcovered]
      simp only [ids, List.mem_flatMap, mem_coveredSlots_iff]
    have hclears : ∀ id, clears ids s.popInput id = true ↔ id ∈ covered ∧ (s.slot id).pending.isSome = true := by
      intro id
      rw [hmem]
      simp only [clears, Bool.and_eq_true, List.contains_iff_mem]
      rfl
    obtain ⟨hslot, hstate, hcount⟩ := clearSlots_clears ids s.popInput 0
    set u := (ids.foldl clearSlot (s.popInput, 0)).1 with hu
    have hcount : (ids.foldl clearSlot (s.popInput, 0)).2 = covered.countP fun id => (s.slot id).pending.isSome := by
      rw [hcount, Nat.zero_add]
      exact countP_eq_card _ hmem hnodup
    have hserve : serve tag (.clearnote es) s.popInput =
        (u, some (.clearnote .done (covered.countP fun id => (s.slot id).pending.isSome))) := by
      rw [← hcount]
      exact congrArg answered (serveClearnote_taken hlen hes)
    have hkept : u.time = s.time ∧ u.units = s.units ∧ u.ests = s.ests ∧ u.poller = s.poller ∧ u.book = s.book ∧
        u.boards = s.boards ∧ u.port = s.popInput.port ∧ u.notices.edges = s.notices.edges := by
      rw [hstate]
      exact ⟨rfl, rfl, rfl, rfl, rfl, rfl, rfl, rfl⟩
    obtain ⟨htime, hunits, hests, hpoller, hbook, hboards, hport, hedges⟩ := hkept
    have hwait : u.port.waiting = [] := by
      rw [hport]
      exact popInput_waiting hoff
    refine ⟨_, exec_served rfl hoff (.inr rfl) hserve, fun id => ?_, ?_, by simp [hedges], by simp [htime], by simp [hunits],
      by simp [hests], by simp [hpoller], by simp [hbook], by simp [hboards],
      portKept_enterReply _ (portKept_of_eq hport), replied_enterReply _ _ hwait⟩
    · rw [slot_congr (congrArg (·.slots) (enterReply_notices _ _)), hslot id]
      have hiff := hclears id
      by_cases hc : id ∈ covered ∧ (s.slot id).pending.isSome = true
      · rw [if_pos hc, if_pos (hiff.mpr hc)]
        rfl
      · rw [if_neg hc, if_neg (fun h => hc (hiff.mp h))]
        rfl
    · rw [enterReply_notices, hstate]
      refine List.filter_congr fun id _ => ?_
      have hiff := hclears id
      by_cases hc : id ∈ covered ∧ (s.slot id).pending.isSome = true
      · simp [hc, hiff.mpr hc]
      · have hno : clears ids s.popInput id = false := Bool.eq_false_iff.mpr fun h => hc (hiff.mp h)
        simp only [hno, hc, not_false_eq_true, decide_true, Bool.not_false]
  · exact exec_served rfl hoff (.inr rfl) (congrArg answered (serveClearnote_refused h))

/-! ### CONFNOTE (R164, R165) -/

theorem serveConfnote_taken {es : List NoteEntry} {s : State} (hlen : es.length ≤ 64)
    (hes : ∀ e ∈ es, noteEntrySound e = true) :
    serveConfnote es s = (es.foldl applyNote s,
      .confnote .done es.length (es.foldl applyNote s).notices.sendList.length) := by
  have hall : es.all noteEntrySound = true := List.all_eq_true.mpr hes
  have hlong : ¬Config.noteEntries < es.length := Nat.not_lt.mpr hlen
  simp [serveConfnote, hall, hlong]

theorem serveConfnote_refused {es : List NoteEntry} {s : State}
    (h : 64 < es.length ∨ ∃ e ∈ es, noteEntrySound e = false) :
    serveConfnote es s = (s, .confnote .malformed 0 s.notices.sendList.length) := by
  unfold serveConfnote
  rw [if_pos]
  rcases h with h | ⟨e, he, hbad⟩
  · simp [Config.noteEntries, h]
  · have hall : es.all noteEntrySound = false := by
      rw [List.all_eq_false]
      exact ⟨e, he, by simp [hbad]⟩
    simp [hall]

theorem setMask_slot (id : SlotId) (s : State) (j : SlotId) :
    (setMask id s).slot j = if id = j then { s.slot id with mask := true } else s.slot j :=
  slot_setSlot s id j _

theorem clearMask_slot (id : SlotId) (s : State) (j : SlotId) :
    ((clearMask id s).slot j).pending = (s.slot j).pending ∧ ((clearMask id s).slot j).image = (s.slot j).image ∧
    ((clearMask id s).slot j).mask = if id = j then false else (s.slot j).mask := by
  have hset : ∀ j, ((s.setSlot id { s.slot id with mask := false }).slot j).pending = (s.slot j).pending ∧
      ((s.setSlot id { s.slot id with mask := false }).slot j).image = (s.slot j).image ∧
      ((s.setSlot id { s.slot id with mask := false }).slot j).mask = if id = j then false else (s.slot j).mask := by
    intro j
    rw [slot_setSlot]
    by_cases hj : id = j
    · subst hj
      simp
    · simp [hj]
  unfold clearMask
  dsimp only
  split
  · obtain ⟨hpend, hmask, himage⟩ := joinSendList_slot id (s.setSlot id { s.slot id with mask := false }) j
    rw [hpend, hmask, himage]
    exact hset j
  · exact hset j

/-- A mask action writes the mask of its own slot only, and no pending notice or image (R165). -/
theorem maskAction_slot (action : Nat) (s : State) (id j : SlotId) :
    ((maskAction action s id).slot j).pending = (s.slot j).pending ∧
    ((maskAction action s id).slot j).image = (s.slot j).image ∧
    ((maskAction action s id).slot j).mask =
      if id = j then (if action = 0 then true else if action = 1 then false else (s.slot j).mask)
      else (s.slot j).mask := by
  unfold maskAction
  split
  · rw [setMask_slot]
    by_cases hj : id = j
    · subst hj
      simp
    · simp [hj]
  · simpa using clearMask_slot id s j
  next h0 h1 =>
    have h0 : action ≠ 0 := fun h => h0 h
    have h1 : action ≠ 1 := fun h => h1 h
    simp [h0, h1]

theorem foldl_maskAction_slot (action : Nat) (ids : List SlotId) (s : State) (j : SlotId) :
    ((ids.foldl (maskAction action) s).slot j).pending = (s.slot j).pending ∧
    ((ids.foldl (maskAction action) s).slot j).image = (s.slot j).image ∧
    ((ids.foldl (maskAction action) s).slot j).mask =
      if j ∈ ids then (if action = 0 then true else if action = 1 then false else (s.slot j).mask)
      else (s.slot j).mask := by
  induction ids generalizing s with
  | nil => simp
  | cons id ids ih =>
    obtain ⟨hpend, himage, hmask⟩ := ih (maskAction action s id)
    obtain ⟨hpend1, himage1, hmask1⟩ := maskAction_slot action s id j
    rw [List.foldl_cons, hpend, himage, hmask, hpend1, himage1, hmask1]
    refine ⟨rfl, rfl, ?_⟩
    by_cases hid : id = j
    · subst hid
      by_cases hzero : action = 0
      · simp [hzero]
      · by_cases hone : action = 1 <;> simp [hzero, hone]
    · have hne : j ≠ id := fun h => hid h.symm
      simp [hid, hne]

/-- A masked slot leaves the send list (R165). -/
theorem foldl_setMask_sendList (ids : List SlotId) (s : State) (j : SlotId) :
    j ∈ (ids.foldl (maskAction 0) s).notices.sendList → j ∈ s.notices.sendList ∧ j ∉ ids := by
  induction ids generalizing s with
  | nil => simp
  | cons id ids ih =>
    intro hj
    obtain ⟨hin, hout⟩ := ih (maskAction 0 s id) hj
    have hfilter : j ∈ s.notices.sendList.filter (· ≠ id) := hin
    simp only [ne_eq, decide_not, List.mem_filter, Bool.not_eq_true', decide_eq_false_iff_not] at hfilter
    exact ⟨hfilter.1, by simp [hfilter.2, hout]⟩

theorem maskAction_keeps (action : Nat) (s : State) (id : SlotId) :
    (maskAction action s id).time = s.time ∧ (maskAction action s id).units = s.units ∧
    (maskAction action s id).ests = s.ests ∧ (maskAction action s id).poller = s.poller ∧
    (maskAction action s id).book = s.book ∧ (maskAction action s id).boards = s.boards ∧
    (maskAction action s id).notices.edges = s.notices.edges ∧ PortKept s (maskAction action s id) := by
  unfold maskAction
  split
  · unfold setMask
    exact ⟨by simp, by simp, by simp, by simp, by simp, by simp, by simp, by constructor <;> simp⟩
  · unfold clearMask
    dsimp only
    split
    · exact ⟨by simp, by simp, by simp, by simp, by simp, by simp, by simp, by constructor <;> simp⟩
    · exact ⟨by simp, by simp, by simp, by simp, by simp, by simp, by simp, by constructor <;> simp⟩
  · exact ⟨rfl, rfl, rfl, rfl, rfl, rfl, rfl, portKept_of_eq rfl⟩

theorem foldl_maskAction_keeps (action : Nat) (ids : List SlotId) (s : State) :
    (ids.foldl (maskAction action) s).time = s.time ∧ (ids.foldl (maskAction action) s).units = s.units ∧
    (ids.foldl (maskAction action) s).ests = s.ests ∧ (ids.foldl (maskAction action) s).poller = s.poller ∧
    (ids.foldl (maskAction action) s).book = s.book ∧ (ids.foldl (maskAction action) s).boards = s.boards ∧
    (ids.foldl (maskAction action) s).notices.edges = s.notices.edges ∧
    PortKept s (ids.foldl (maskAction action) s) := by
  induction ids generalizing s with
  | nil => exact ⟨rfl, rfl, rfl, rfl, rfl, rfl, rfl, portKept_of_eq rfl⟩
  | cons id ids ih =>
    obtain ⟨h1, h2, h3, h4, h5, h6, h7, h8⟩ := ih (maskAction action s id)
    obtain ⟨k1, k2, k3, k4, k5, k6, k7, k8⟩ := maskAction_keeps action s id
    exact ⟨h1.trans k1, h2.trans k2, h3.trans k3, h4.trans k4, h5.trans k5, h6.trans k6, h7.trans k7,
      portKept_trans k8 h8⟩

/-! ### Latching (R162, R163) -/

theorem recordOf_eq (level : Bool) (detail : Nat) (s : State) :
    recordOf level detail s = { clock := s.clockNow.getD 0, level, detail } := by
  unfold recordOf State.clockNow
  cases s.time.clockState <;> rfl

theorem setPending_latches (id : SlotId) (level : Bool) (detail : Nat) (s : State) :
    Latches id level detail s (setPending id level detail s) where
  pending := setPending_pending id level detail s
  masked h hm := by
    rw [setPending_masked id level detail s h hm, recordOf_eq]
    exact slotMoved_setSlot s id _
  due h hm := by
    rw [setPending_unmasked id level detail s h hm, recordOf_eq]
    exact joinSendList_becomesDue id _ _ s rfl

theorem reportLevel_changed {cls : NoteClass} {src : Nat} {level : Bool} (detail : Nat) {s : State}
    (h : (s.slot ⟨cls, src⟩).image ≠ level) :
    reportLevel cls src level detail s =
      if level || s.notices.edges.of cls = .both then
        setPending ⟨cls, src⟩ level detail (s.setSlot ⟨cls, src⟩ { s.slot ⟨cls, src⟩ with image := level })
      else s.setSlot ⟨cls, src⟩ { s.slot ⟨cls, src⟩ with image := level } := by
  simp only [reportLevel]
  rw [if_neg (Ne.symm h)]

/-- Settles O37: the entries are taken in their order, each with its edge and then its slots; a notice is latched once. -/
theorem confnoteApplies : Obligations.ConfnoteApplies := by
  refine ⟨fun tag es s hoff hd => ⟨fun hlen hes => ⟨_, rfl, ?_⟩, fun h => ?_⟩, noteEntrySound_iff, applyNote_edges,
    fun cls src => ⟨mem_coveredSlots_iff cls src, coveredSlots_order cls src⟩, maskAction_masks, ?_,
    fun cls src detail s _ => setPending_latches _ _ _ _, fun cls src detail level s hlevel =>
      ⟨reportLevel_same cls src level detail s, fun himage => ⟨_, slotMoved_setSlot s _ _, fun h => ?_, fun hl he => ?_⟩⟩⟩
  · exact exec_served rfl hoff (.inl hd) (congrArg answered (serveConfnote_taken hlen hes))
  · exact exec_served rfl hoff (.inl hd) (congrArg answered (serveConfnote_refused h))
  · intro tag e s hoff hd hsound
    have hserve : serve tag (.confnote [e]) s.popInput = (applyNote s.popInput e,
        some (.confnote .done 1 (applyNote s.popInput e).notices.sendList.length)) :=
      congrArg answered (serveConfnote_taken (es := [e]) (s := s.popInput) (by simp) (by simpa using hsound))
    obtain ⟨s1, hs1, hedges, happly⟩ := applyNote_edges e s.popInput
    have hslot1 : ∀ id, s1.slot id = s.slot id := fun id => by
      rw [hs1]
      rfl
    have hrest1 : s1.time = s.time ∧ s1.units = s.units ∧ s1.ests = s.ests ∧ s1.poller = s.poller ∧
        s1.book = s.book ∧ s1.boards = s.boards ∧ s1.port = s.popInput.port := by
      rw [hs1]
      exact ⟨rfl, rfl, rfl, rfl, rfl, rfl, rfl⟩
    obtain ⟨r1, r2, r3, r4, r5, r6, r7⟩ := hrest1
    obtain ⟨k1, k2, k3, k4, k5, k6, k7, k8⟩ := foldl_maskAction_keeps e.mask (coveredSlots e.cls e.src) s1
    rw [← happly] at k1 k2 k3 k4 k5 k6 k7 k8
    have hnotices : ∀ rcd, (enterReply rcd (applyNote s.popInput e)).notices = (applyNote s.popInput e).notices :=
      fun rcd => by simp
    refine ⟨_, exec_served rfl hoff (.inl hd) hserve, fun id => ?_, fun c hc => ?_, fun hmask id hid hlist => ?_,
      by simp [k1, r1], by simp [k2, r2], by simp [k3, r3], by simp [k4, r4], by simp [k5, r5], by simp [k6, r6],
      portKept_enterReply _ (portKept_trans (portKept_of_eq r7) k8), ?_⟩
    · obtain ⟨hpend, himage, hmask⟩ := foldl_maskAction_slot e.mask (coveredSlots e.cls e.src) s1 id
      rw [← happly, hslot1] at hpend himage hmask
      rw [slot_congr (congrArg (·.slots) (hnotices _))]
      exact ⟨hpend, himage, hmask⟩
    · rw [hnotices, k7]
      exact hedges c hc
    · rw [hnotices, happly, hmask] at hlist
      exact (foldl_setMask_sendList _ _ id hlist).2 hid
    · rw [hnotices]
      exact replied_of_moves _ hoff (moves_applyNote _ e)
  · rw [reportLevel_changed detail himage, if_pos (by simpa using h)]
    exact setPending_latches _ _ _ _
  · rw [reportLevel_changed detail himage, if_neg (by simp [hl, he])]

end Sys2Proof.Machine
end

section
/-! A missed poll, and the end of a line frame: O53, O56. -/

namespace Sys2Proof.Machine

open Sys2Proof.Safety

/-! ### A poll missed (R61, R62) -/

theorem saturate_byte (n : Nat) : saturate 255 (n + 1) = min 255 (n + 1) := saturate_eq_min _ _

theorem reportLevel_ests (cls : NoteClass) (src : Nat) (level : Bool) (detail : Nat) (s : State) :
    (reportLevel cls src level detail s).ests = s.ests := by simp

theorem reportLevel_boards (cls : NoteClass) (src : Nat) (level : Bool) (detail : Nat) (s : State) :
    (reportLevel cls src level detail s).boards = s.boards := by simp

/-- What the loss of the link does to the ride and its estimator (R62, R64). -/
theorem reportLost_effect (r : Nat) (prev : Link) (m : Nat) (s : State) :
    ((reportLost r prev m s).slot ⟨.link, r⟩).image = true ∧
    (reportLost r prev m s).units = s.units.update r (fun u => { u with fault := 0, clear := 0 }) ∧
    (∀ e, s.ests.find r = some e →
      (0 < s.time.params.staleHold →
        (reportLost r prev m s).ests.find r = some { e with eligible := false, staleTimer := 0 } ∧
        (reportLost r prev m s).boards = s.boards) ∧
      (s.time.params.staleHold = 0 →
        (reportLost r prev m s).ests.find r =
          some { e with eligible := false, staleTimer := 0, stale := true, wait := none } ∧
        (e.wait = none → (reportLost r prev m s).boards = s.boards) ∧
        (e.wait ≠ none → (reportLost r prev m s).boards = (blinkRide r s).boards))) ∧
    OthersKept r s.ests (reportLost r prev m s).ests := by
  let s1 := unitLink r .lost s
  let s2 := s1.modEst r fun e => { e with eligible := false, staleTimer := 0 }
  have hlink : estimatorLink r prev .lost s1 = if s.time.params.staleHold = 0 then setStale r s2 else s2 := by
    simp only [estimatorLink, if_true, s1, s2]
    simp
  have hests2 : s2.ests = s.ests.update r fun e => { e with eligible := false, staleTimer := 0 } := by simp [s2, s1]
  have hunits1 : s1.units = s.units.update r fun u => { u with fault := 0, clear := 0 } := by simp [s1, unitLink]
  have hboards2 : s2.boards = s.boards := by simp [s2, s1]
  refine ⟨?_, ?_, fun e he => ⟨fun hhold => ?_, fun hhold => ?_⟩, fun j hj => ?_⟩
  · simp [reportLost]
  · simp only [reportLost, (reportLevel_keeps _ _ _ _ _).2.1, (estimatorLink_keeps _ _ _ _).2.1]
    exact hunits1
  · rw [reportLost, reportLevel_ests, reportLevel_boards, hlink,
      if_neg (by omega)]
    exact ⟨by simp [hests2, he], hboards2⟩
  · have he2 : s2.ests.find r = some { e with eligible := false, staleTimer := 0 } := by simp [hests2, he]
    obtain ⟨hest, -, hblink, hstill, -, -⟩ := setStale_effect r s2 _ he2
    rw [reportLost, reportLevel_ests, reportLevel_boards, hlink,
      if_pos hhold]
    refine ⟨hest, fun hw => (hstill hw).trans hboards2, fun hw => (hblink hw).trans ?_⟩
    exact blinkRide_boards_congr r (by simp [s2, s1]) hboards2
  · rw [reportLost, reportLevel_ests, hlink]
    split
    · cases he : s2.ests.find r with
      | none =>
        have hsame : (setStale r s2).ests.find j = s2.ests.find j := by
          simp [setStale, setWait, he, Ne.symm hj]
        rw [hsame, hests2]
        simp [Ne.symm hj]
      | some e =>
        rw [(setStale_effect r s2 e he).2.1 j hj, hests2]
        simp [Ne.symm hj]
    · rw [hests2]
      simp [Ne.symm hj]

/-- The poll that is out ends in a miss, by a bad report or by none. -/
theorem exec_poll_missed {c : Instr} {s : State} {r address : Nat} {got bytes : List Byte}
    (hline : s.poller.line = .outstanding r address got)
    (hc : (c = .pollMiss bytes ∧ (got ++ bytes).length < 13) ∨
      ((c = .goodReply bytes ∨ c = .pollMiss bytes) ∧ 13 ≤ (got ++ bytes).length ∧
        judgeReport address ((got ++ bytes).take 13) = none)) :
    exec c s = .next (takePollMiss r { s with poller := { s.poller with line := .idle } }) := by
  rcases hc with ⟨rfl, hshort⟩ | ⟨hc, hlong, hbad⟩
  · refine exec_next rfl ?_
    have hshort : ¬Config.reportBytes ≤ (got ++ bytes).length := Nat.not_le.mpr hshort
    simp only [closeFieldWindow, hline, if_neg hshort]
  · have hlong : Config.reportBytes ≤ (got ++ bytes).length := hlong
    have hjudge : judgePoll r address ((got ++ bytes).take Config.reportBytes) s =
        takePollMiss r { s with poller := { s.poller with line := .idle } } := by
      have hbad : judgeReport address ((got ++ bytes).take Config.reportBytes) = none := hbad
      simp only [judgePoll, hbad]
    rcases hc with rfl | rfl <;> refine exec_next rfl ?_
    · simp only [takeFieldBytes, hline, if_pos hlong, hjudge]
    · simp only [closeFieldWindow, hline, if_pos hlong, hjudge]

/-- Settles O53: a miss is counted, and as many misses as the park allows lose the link. -/
theorem pollMissCounts : Obligations.PollMissCounts := by
  intro c s r address got bytes f lost hline hf hc hlost
  let s1 : State := { s with poller := { s.poller with line := .idle } }
  let s2 := s1.modField r fun g => { g with misses := min 255 (f.misses + 1) }
  let s3 := s2.modField r fun g => { g with link := .lost, baseValid := false }
  have htake : takePollMiss r s1 = if lost then reportLost r f.link (min 255 (f.misses + 1)) s3 else s2 := by
    have hf1 : s1.poller.records.find r = some f := hf
    have hcond : (lost = true) = (f.link ≠ .lost ∧ s1.time.params.silencePolls ≤ min 255 (f.misses + 1)) := by
      rw [hlost, decide_eq_true_eq]
    simp only [takePollMiss, hf1, saturate_byte, hcond, s2, s3]
  have hrecords : (takePollMiss r s1).poller = { s.poller with
      line := .idle
      records := if lost then s3.poller.records else s2.poller.records } := by
    rw [htake]
    cases lost <;> simp [reportLost, s3, s2, s1]
  have hfind2 : s2.poller.records.find r = some { f with misses := min 255 (f.misses + 1) } := by simp [s2, s1, hf]
  have hfind3 : s3.poller.records.find r =
      some { f with misses := min 255 (f.misses + 1), link := .lost, baseValid := false } := by simp [s3, hfind2]
  refine ⟨_, exec_poll_missed hline hc, by rw [hrecords], ?_, fun hl => ?_, fun hl => ?_, fun j hj => ?_, fun j hj => ?_,
    fun j hj => ?_, by rw [hrecords], by rw [hrecords], ?_, ?_, ?_⟩
  · rw [hrecords]
    cases lost
    · exact hfind2
    · exact hfind3
  · obtain ⟨himage, hunits, hests, -⟩ := reportLost_effect r f.link (min 255 (f.misses + 1)) s3
    rw [htake, if_pos hl]
    refine ⟨himage, fun u hu => ?_, hests⟩
    have hu3 : s3.units.find r = some u := hu
    rw [hunits, Table.find_update, if_pos rfl, hu3]
    rfl
  · rw [htake, if_neg (by simp [hl])]
    exact ⟨rfl, rfl, rfl, rfl, rfl⟩
  · rw [hrecords]
    cases lost <;> simp [s3, s2, s1, Ne.symm hj]
  · rw [htake]
    cases lost
    · rfl
    · rw [if_pos rfl, (reportLost_effect r f.link (min 255 (f.misses + 1)) s3).2.1, Table.find_update, if_neg (Ne.symm hj)]
      rfl
  · rw [htake]
    cases lost
    · rfl
    · rw [if_pos rfl, (reportLost_effect r f.link (min 255 (f.misses + 1)) s3).2.2.2 j hj]
      rfl
  · rw [htake]
    cases lost
    · rfl
    · simp [reportLost, s3, s2, s1]
  · rw [htake]
    cases lost
    · rfl
    · simp [reportLost, s3, s2, s1]
  · rw [htake]
    cases lost
    · exact portKept_of_eq rfl
    · constructor <;> simp [reportLost, s3, s2, s1]

/-! ### The end of a line frame (R129, R130, R139) -/

theorem startPass_keys (s : State) : (startPass s).boards.table.keys = s.boards.table.keys := by
  simp [startPass]

/-- What is chosen next may turn pages, and leaves a board otherwise as it is. -/
theorem chooseNext_find (s : State) (x : Nat) (y : Board) (hy : s.boards.table.find x = some y) :
    ∃ k, (chooseNext s).boards.table.find x = some { y with kind := k } := by
  have hsame : ∀ t : State, t.boards.table = s.boards.table → ∃ k, t.boards.table.find x = some { y with kind := k } :=
    fun t h => ⟨y.kind, by rw [h, hy]⟩
  unfold chooseNext
  split
  · exact hsame s rfl
  · split
    · exact hsame s rfl
    · unfold endPass
      dsimp only
      split
      · exact ⟨_, startPass_find _ x y hy⟩
      · exact hsame _ rfl

theorem chooseNext_startOwed {s : State} (h : s.boards.startOwed = false) : (chooseNext s).boards.startOwed = false := by
  unfold chooseNext
  split
  · exact h
  · split
    · exact h
    · unfold endPass
      dsimp only
      split
      · rfl
      · exact h

theorem startPass_line (s : State) : (startPass s).boards.line = s.boards.line := rfl

theorem chooseNext_line (s : State) : (chooseNext s).boards.line = s.boards.line := by
  unfold chooseNext
  split
  · rfl
  · split
    · rfl
    · unfold endPass
      dsimp only
      split <;> rfl

/-- The kinds of the boards are all that the choice of the next line reads of them. -/
theorem boardAbove_congr {t u : Table Board} (hkeys : t.keys = u.keys) (a : Nat) : boardAbove t a = boardAbove u a := by
  rw [boardAbove, boardAbove, hkeys]

theorem nextLine_congr {t u : Table Board} (hkeys : t.keys = u.keys)
    (hkinds : ∀ x, (t.find x).map (·.kind) = (u.find x).map (·.kind)) (a l : Nat) : nextLine t a l = nextLine u a l := by
  have hk := hkinds a
  unfold nextLine
  rw [boardAbove_congr hkeys a]
  cases ht : t.find a <;> cases hu : u.find a <;> simp only [ht, hu, Option.map_none, Option.map_some] at hk
  · rfl
  · cases hk
  · cases hk
  · dsimp only
    rw [Option.some.inj hk]

theorem isEmpty_of_keys {α : Type} {t u : Table α} (h : t.keys = u.keys) : List.isEmpty t = List.isEmpty u := by
  cases t with
  | nil => cases u with
    | nil => rfl
    | cons y u => cases h
  | cons x t => cases u with
    | nil => cases h
    | cons y u => rfl

/-- Taking a board's presence changes no kind, so the choice after it is the choice there was. -/
theorem nextChoice_of_sameKinds {s s1 t : State} (h : NextChoice s1 t) (hkeys : s1.boards.table.keys = s.boards.table.keys)
    (hkinds : ∀ x, (s1.boards.table.find x).map (·.kind) = (s.boards.table.find x).map (·.kind))
    (hpass : s1.boards.pass = s.boards.pass) (hdue : s1.boards.due = s.boards.due)
    (htimer : s1.boards.timer = s.boards.timer) (howed : s1.boards.startOwed = s.boards.startOwed)
    (hsent : s1.boards.sent = s.boards.sent) (hunits : s1.units = s.units) : NextChoice s t := by
  have hnext := nextLine_congr hkeys hkinds
  have hfind : ∀ x b, s.boards.table.find x = some b → ∃ b1, s1.boards.table.find x = some b1 ∧ b1.kind = b.kind := by
    intro x b hb
    have hk := hkinds x
    rw [hb] at hk
    cases hb1 : s1.boards.table.find x with
    | none => simp [hb1] at hk
    | some b1 => exact ⟨b1, rfl, by simpa [hb1] using hk⟩
  refine ⟨h.keys.trans hkeys, h.sent.trans hsent, fun hstand => ?_, fun a l hp hn hd => ?_, fun a l hp hn hd => ?_⟩
  · rw [← hpass] at hstand
    simp only [← hnext] at hstand
    obtain ⟨h1, h2, h3, h4, h5⟩ := h.stands hstand
    refine ⟨h1.trans hpass, h2.trans hdue, h3.trans htimer, h4.trans howed, fun x b hb => ?_⟩
    obtain ⟨b1, hb1, hk⟩ := hfind x b hb
    exact hk ▸ h5 x b1 hb1
  · rw [← hpass] at hp
    rw [← hnext] at hn
    rw [← hdue] at hd
    obtain ⟨h1, h2, h3, h4, h5⟩ := h.ends a l hp hn hd
    refine ⟨h1, h2, h3.trans htimer, h4.trans howed, fun x b hb => ?_⟩
    obtain ⟨b1, hb1, hk⟩ := hfind x b hb
    exact hk ▸ h5 x b1 hb1
  · rw [← hpass] at hp
    rw [← hnext] at hn
    rw [← hdue] at hd
    obtain ⟨h1, h2, h3, h4, h5⟩ := h.starts a l hp hn hd
    refine ⟨by rw [h1, isEmpty_of_keys hkeys], h2, h3, h4, fun x b hb => ?_⟩
    obtain ⟨b1, hb1, hk⟩ := hfind x b hb
    rw [← hk, ← hunits]
    exact h5 x b1 hb1

/-- What a board that ends its frame is, once its level is judged (R131). -/
def Board.ended (f : Board → Board) (b : Board) : Board :=
  if (f b).presence = b.presence ∧ (f b).lastStatus = b.lastStatus then f b else { f b with level := (f b).faulty }

theorem judgeBoard_boards (a : Nat) (s : State) (b : Board) (hb : s.boards.table.find a = some b) :
    (judgeBoard a s).boards.table.find a = some { b with level := b.faulty } ∧
    OthersKept a s.boards.table (judgeBoard a s).boards.table ∧
    (judgeBoard a s).boards = { s.boards with table := (judgeBoard a s).boards.table } ∧
    (judgeBoard a s).boards.table.keys = s.boards.table.keys := by
  simp only [judgeBoard, hb]
  split
  next hlevel => exact ⟨by rw [hb, hlevel], fun _ _ => rfl, rfl, rfl⟩
  next => exact ⟨by simp [hb, Board.faulty], fun j hj => by simp [Ne.symm hj], by simp, by simp⟩

theorem takePresence_boards (a : Nat) (f : Board → Board) (s : State) (b : Board) (hb : s.boards.table.find a = some b) :
    (takePresence a f s).boards.table.find a = some (b.ended f) ∧
    OthersKept a s.boards.table (takePresence a f s).boards.table ∧
    (takePresence a f s).boards = { s.boards with table := (takePresence a f s).boards.table } ∧
    (takePresence a f s).boards.table.keys = s.boards.table.keys := by
  simp only [takePresence, hb, Board.ended]
  have hmod : (s.modBoard a f).boards.table.find a = some (f b) := by simp [hb]
  split
  · exact ⟨hmod, fun j hj => by simp [Ne.symm hj], rfl, by simp⟩
  · obtain ⟨hfind, hothers, hboards, hkeys⟩ := judgeBoard_boards a (s.modBoard a f) (f b) hmod
    refine ⟨hfind, fun j hj => (hothers j hj).trans (by simp [Ne.symm hj]), ?_, hkeys.trans (by simp)⟩
    rw [hboards]
    rfl

/-- The common part of a status byte and of a missing one. -/
theorem frame_ended (s : State) (a n : Nat) (b : Board) (f : Board → Board) (hf : ∀ b, (f b).kind = b.kind)
    (hline : s.boards.line = .outstanding a n) (hb : s.boards.table.find a = some b) :
    ∃ (t : State), t = chooseNext (takePresence a f { s with boards := { s.boards with line := .idle } }) ∧
      t.boards.line = .idle ∧ (∃ k, t.boards.table.find a = some { b.ended f with kind := k }) ∧
      (∀ x y, x ≠ a → s.boards.table.find x = some y → ∃ k, t.boards.table.find x = some { y with kind := k }) ∧
      NextChoice s t ∧ t.time = s.time ∧ t.units = s.units ∧ t.ests = s.ests ∧ t.poller = s.poller ∧ t.book = s.book ∧
      PortKept s t := by
  let s0 : State := { s with boards := { s.boards with line := .idle } }
  obtain ⟨hfind, hothers, hboards, hkeys⟩ := takePresence_boards a f s0 b hb
  set s1 := takePresence a f s0 with hs1
  have hended : (b.ended f).kind = b.kind := by
    unfold Board.ended
    split <;> exact hf b
  refine ⟨_, rfl, ?_, chooseNext_find s1 a _ hfind, fun x y hx hy => ?_, ?_, by simp [hs1, s0], by simp [hs1, s0],
    by simp [hs1, s0], by simp [hs1, s0], by simp [hs1, s0], by constructor <;> simp [hs1, s0]⟩
  · rw [chooseNext_line, hboards]
  · exact chooseNext_find s1 x y ((hothers x hx).trans hy)
  · refine nextChoice_of_sameKinds (chooseNext_nextChoice s1) hkeys (fun x => ?_) (by rw [hboards]) (by rw [hboards])
      (by rw [hboards]) (by rw [hboards]) (by rw [hboards]) (by simp [hs1, s0])
    by_cases hx : x = a
    · subst hx
      rw [hfind, Option.map_some, hended, hb]
      rfl
    · rw [hothers x hx]

/-- The presence, the status and the lines of a board are not what its level is judged into. -/
theorem ended_fields (f : Board → Board) (b : Board) : (b.ended f).misses = (f b).misses ∧
    (b.ended f).presence = (f b).presence ∧ (b.ended f).lastStatus = (f b).lastStatus ∧ (b.ended f).lines = (f b).lines := by
  unfold Board.ended
  split <;> exact ⟨rfl, rfl, rfl, rfl⟩

theorem ended_takeStatus_level (n : Nat) (b : Board) : (b.ended (Board.takeStatus n)).level =
    if b.presence = .present ∧ b.lastStatus = some n then b.level else decide (n ≠ 0) := by
  unfold Board.ended
  by_cases hsame : b.presence = .present ∧ b.lastStatus = some n
  · simp [Board.takeStatus, hsame]
  · have hchange : ¬((Board.takeStatus n b).presence = b.presence ∧ (Board.takeStatus n b).lastStatus = b.lastStatus) :=
      fun h => hsame ⟨h.1.symm, h.2.symm⟩
    rw [if_neg hchange, if_neg hsame]
    simp [Board.takeStatus, Board.faulty]

theorem ended_takeMiss_level (b : Board) : (b.ended Board.takeMiss).level =
    if (Board.takeMiss b).presence = b.presence then b.level else true := by
  unfold Board.ended
  by_cases hsame : (Board.takeMiss b).presence = b.presence
  · rw [if_pos ⟨hsame, rfl⟩, if_pos hsame]
    rfl
  · have hsilent : (Board.takeMiss b).presence = .silent := by
      simp only [Board.takeMiss] at hsame ⊢
      split
      · rfl
      · next h => exact absurd (if_neg h) hsame
    rw [if_neg fun h => hsame h.1, if_neg hsame]
    simp [Board.faulty, hsilent]

theorem takeMiss_misses (b : Board) : (Board.takeMiss b).misses = min 255 (b.misses + 1) := saturate_byte _

theorem takeMiss_presence (b : Board) :
    (Board.takeMiss b).presence = if 3 ≤ min 255 (b.misses + 1) then .silent else b.presence := by
  rw [← saturate_byte]
  rfl

/-- The window of an abandoned frame closes: what the line owes, or the next choice, comes first. -/
theorem reservedWindow_ends (s : State) (hline : s.boards.line = .reserved) :
    ∃ t, exec .abandonedFrameWindowClose s = .next t ∧ t.boards.line = .idle ∧ t.boards.startOwed = false ∧
      (s.boards.startOwed = true → t.boards.timer = 0 ∧ t.boards.due = false ∧
        t.boards.pass = (if s.boards.table.isEmpty then none else some (0, 0)) ∧
        ∀ x b, s.boards.table.find x = some b → HasKind t x (b.kind.advance s.units)) ∧
      (s.boards.startOwed = false → NextChoice s t) ∧
      (∀ x y, s.boards.table.find x = some y → ∃ k, t.boards.table.find x = some { y with kind := k }) ∧
      t.time = s.time ∧ t.units = s.units ∧ t.ests = s.ests ∧ t.poller = s.poller ∧ t.book = s.book ∧
      t.notices = s.notices ∧ t.port = s.port := by
  let s0 : State := { s with boards := { s.boards with line := .idle } }
  have hclose : reservedWindowClose s = if s.boards.startOwed then startPass s0 else chooseNext s0 := by
    simp only [reservedWindowClose, hline, s0]
  cases howed : s.boards.startOwed with
  | true =>
    rw [howed, if_pos rfl] at hclose
    refine ⟨startPass s0, exec_next rfl hclose, rfl, rfl, fun _ => ⟨rfl, rfl, rfl, fun x b hb => ?_⟩, nofun,
      fun x y hy => ⟨_, startPass_find s0 x y hy⟩, rfl, rfl, rfl, rfl, rfl, rfl, rfl⟩
    exact ⟨_, startPass_find s0 x b hb, rfl⟩
  | false =>
    rw [howed, if_neg (by decide)] at hclose
    refine ⟨chooseNext s0, exec_next rfl hclose, chooseNext_line s0, chooseNext_startOwed (s := s0) howed,
      nofun, fun _ => ?_, fun x y hy => chooseNext_find s0 x y hy, ?_⟩
    · exact nextChoice_of_sameKinds (chooseNext_nextChoice s0) rfl (fun _ => rfl) rfl rfl rfl rfl rfl rfl
    · simp [s0]

/-- Settles O56: a board that answers is present, one that misses three frames in a row is silent, and the pass goes on. -/
theorem lineFrameEnds : Obligations.LineFrameEnds := by
  refine ⟨fun s a n b hline hb => ⟨fun status => ?_, ?_⟩, reservedWindow_ends, nextLine_cases⟩
  · obtain ⟨t, ht, hidle, ⟨k, hfind⟩, hrest⟩ := frame_ended s a n b (Board.takeStatus status.toNat) (fun _ => rfl) hline hb
    have hexec : takeBoardByte status s = t := by
      rw [ht]
      simp only [takeBoardByte, hline]
    obtain ⟨hmisses, hpresence, hstatus, hlines⟩ := ended_fields (Board.takeStatus status.toNat) b
    exact ⟨t, _, exec_next rfl hexec, hidle, hfind, hmisses, hpresence, hstatus, hlines, ended_takeStatus_level _ b, hrest⟩
  · obtain ⟨t, ht, hidle, ⟨k, hfind⟩, hrest⟩ := frame_ended s a n b Board.takeMiss (fun _ => rfl) hline hb
    have hexec : takeBoardMiss s = t := by
      rw [ht]
      simp only [takeBoardMiss, hline]
    obtain ⟨hmisses, hpresence, hstatus, hlines⟩ := ended_fields Board.takeMiss b
    refine ⟨t, _, exec_next rfl hexec, hidle, hfind, hmisses.trans (takeMiss_misses b),
      hpresence.trans (takeMiss_presence b), hstatus, hlines, ?_, hrest⟩
    exact (ended_takeMiss_level b).trans (by rw [← hpresence])

end Sys2Proof.Machine
end

section
/-! The creation and the removal of a ride: O18, O20. -/

namespace Sys2Proof.Machine

open Sys2Proof.Safety

/-! ### CONFRIDE creates a ride (R20, R21) -/

theorem serveConfride_creates {r : Nat} {f : RideFields} {name : Text} {address : Nat} {s : State}
    (hd : s.time.day = .idle ∨ s.time.day = .after) (hr : rideInRange r = true) (hnone : s.units.find r = none)
    (hname : f.fullName = some name) (haddress : f.fieldAddress = some address) (hm : s.fieldsMalformed r f = false) :
    serveConfride r false f false s = (createRide r (RideConfig.default.store (clampFields f)) s,
      .confride (if clampFields f ≠ f then .clamped else .done) (some (RideConfig.default.store (clampFields f)))) := by
  obtain ⟨hnotOpening, hnotDay⟩ := idle_or_after_ne hd
  have hrefusal : s.confrideRefusal r false f false = none := by
    simp [State.confrideRefusal, hnotOpening, hr, hm, hnone, hname, haddress, hnotDay]
  simp [serveConfride, hrefusal, storeRide, hnone, doneOr]

/-- Settles O18: a new ride is closed, its link not yet heard of, its estimator fresh and its book empty. -/
theorem confrideCreates : Obligations.ConfrideCreates := by
  intro tag r f name address s hoff hd h1 h48 hnone hname haddress hm
  have hr : rideInRange r = true := (rideInRange_iff r).mpr ⟨h1, h48⟩
  let c := RideConfig.default.store (clampFields f)
  have hserve : serve tag (.confride r false f false) s.popInput = (createRide r c s.popInput,
      some (.confride (if clampFields f ≠ f then .clamped else .done) (some c))) :=
    congrArg answered (serveConfride_creates (s := s.popInput) hd hr hnone hname haddress hm)
  have hcname : c.fullName = name := by simp [c, RideConfig.store, clampFields, hname]
  have hcaddress : c.fieldAddress = address := by simp [c, RideConfig.store, clampFields, haddress]
  refine ⟨_, c, exec_served rfl hoff (.inl (idle_or_after_ne hd).1) hserve, rfl, hcname, hcaddress, ?_⟩
  refine ⟨by simp [createRide, RideUnit.fresh, State.clockNow], by simp [createRide, FieldRecord.fresh, hcaddress],
    by simp [createRide, Estimator.fresh, initialS, initialSR], by simp [createRide, State.rideBook],
    fun j hj => by simp [createRide, Ne.symm hj], fun j hj => by simp [createRide, Ne.symm hj],
    fun j hj => by simp [createRide, Ne.symm hj], fun j hj => by simp [createRide, Ne.symm hj],
    by constructor <;> simp [createRide], by simp [createRide], by simp [createRide], by simp [createRide],
    by simp [createRide], portKept_enterReply _ (portKept_of_eq rfl), ?_⟩
  exact replied_enterReply _ _ (popInput_waiting hoff : s.popInput.port.waiting = [])

/-! ### CONFRIDE removes a ride (R22) -/

/-- The levels of a ride that is gone have fallen (R164). -/
theorem rideGone_image (r : Nat) (s : State) :
    ∀ c ∈ [NoteClass.stall, .code, .link, .slots, .flex], ((rideGone r s).slot ⟨c, r⟩).image = false := by
  intro c hc
  simp only [rideGone, rideLevels, List.foldl_cons, List.foldl_nil, reportLevel_image]
  fin_cases hc <;> simp

/-- The poll that is out to ride `r` is abandoned: its line stays reserved (R57). -/
def FieldLine.abandon (r : Nat) : FieldLine → FieldLine
  | .outstanding x a got => if x = r then .reserved else .outstanding x a got
  | .idle => .idle
  | .reserved => .reserved

theorem abandonPoll_eq (r : Nat) (s : State) :
    abandonPoll r s = { s with poller := { s.poller with line := s.poller.line.abandon r } } := by
  unfold abandonPoll
  split
  next b a got h =>
    rw [h, FieldLine.abandon]
    split
    · rfl
    · rw [← h]
  next h => rw [h, FieldLine.abandon, ← h]
  next h => rw [h, FieldLine.abandon, ← h]

theorem serveConfride_removes {r : Nat} {s : State} {u : RideUnit} (hd : s.time.day = .idle ∨ s.time.day = .after)
    (hr : rideInRange r = true) (hu : s.units.find r = some u) (hnames : s.boardNames r = false) :
    serveConfride r true {} false s = (removeRide r s, .confride .done none) := by
  obtain ⟨hnotOpening, hnotDay⟩ := idle_or_after_ne hd
  have hrefusal : s.confrideRefusal r true {} false = none := by
    simp [State.confrideRefusal, hnotOpening, hr, hu, hnotDay, hnames, State.fieldsMalformed]
  simp [serveConfride, hrefusal]

/-- Settles O20: the records of a ride that goes are gone, its poll is abandoned, and its levels have fallen. -/
theorem confrideRemoves : Obligations.ConfrideRemoves := by
  intro tag r s u hoff hd h1 h48 hu hnames
  have hr : rideInRange r = true := (rideInRange_iff r).mpr ⟨h1, h48⟩
  have hserve : serve tag (.confride r true {} false) s.popInput =
      (removeRide r s.popInput, some (.confride .done none)) :=
    congrArg answered (serveConfride_removes (s := s.popInput) hd hr hu hnames)
  have hmoves : Moves s.popInput (removeRide r s.popInput) := moves_removeRide r _
  refine ⟨_, exec_served rfl hoff (.inl (idle_or_after_ne hd).1) hserve, by simp [removeRide, abandonPoll_eq],
    by simp [removeRide, abandonPoll_eq], by simp [removeRide, abandonPoll_eq], ?_, fun c hc => ?_,
    fun j hj => by simp [removeRide, abandonPoll_eq, Ne.symm hj],
    fun j hj => by simp [removeRide, abandonPoll_eq, Ne.symm hj],
    fun j hj => by simp [removeRide, abandonPoll_eq, Ne.symm hj], by simp [removeRide, abandonPoll_eq],
    by simp [removeRide, abandonPoll_eq], by simp [removeRide, abandonPoll_eq],
    portKept_enterReply _ (by constructor <;> simp [removeRide, abandonPoll_eq]), replied_of_moves _ hoff hmoves⟩
  · have hline : (removeRide r s.popInput).poller.line = s.poller.line.abandon r := by simp [removeRide, abandonPoll_eq]
    rw [(enterReply_keeps _ _).2.2.1, hline]
    generalize s.poller.line = l
    cases l <;> rfl
  · rw [slot_congr (congrArg (·.slots) (enterReply_notices _ _))]
    exact rideGone_image r _ c hc

end Sys2Proof.Machine
end

section
/-! What a RESERVE finds, and what the guards say: O26. -/

namespace Sys2Proof.Machine

open Sys2Proof.Safety

/-! ### The search of a RESERVE (R111 to R113) -/

section
variable {s : State} {o : ReserveOps} {u : RideUnit} {e : Estimator}

theorem reserveFind_malformed (hd : s.time.day = .day) (hm : ¬ReserveShaped o) :
    s.reserveFind o = .error (.malformed, {}) := by
  have hm : o.malformed = true := by
    rw [← Bool.not_eq_false, malformed_false_iff]
    exact hm
  simp [State.reserveFind, (dayRefusal_none_iff _).mpr hd, hm]

theorem reserveFind_unknown (hd : s.time.day = .day) (hm : ReserveShaped o)
    (h : s.units.find o.ride = none ∨ s.ests.find o.ride = none) :
    s.reserveFind o = .error (.unknownRide, { party := some o.party }) := by
  have hm := (malformed_false_iff o).mpr hm
  rcases h with h | h
  · simp [State.reserveFind, (dayRefusal_none_iff _).mpr hd, hm, h]
  · cases hu : s.units.find o.ride <;> simp [State.reserveFind, (dayRefusal_none_iff _).mpr hd, hm, h, hu]

/-- What is left of the search once the ride is known: the guard, the ride's state, its wait, the account, the windows. -/
theorem reserveFind_known (hd : s.time.day = .day) (hm : ReserveShaped o) (hu : s.units.find o.ride = some u)
    (he : s.ests.find o.ride = some e) : s.reserveFind o =
      if s.guardHolds o.guard o.operand o.ride = false then
        .error (.guardFalse, { party := some o.party, ride := some u.state })
      else match reserveRefusal u.state with
        | some c => .error (c, { party := some o.party, ride := some u.state })
        | none =>
          match e.wait with
          | none => .error (.noData, { party := some o.party })
          | some w =>
            match s.accountRefusal o.token o.ride with
            | some (c, n) => .error (c, { party := some o.party, conflict := n })
            | none =>
              match s.searchWindow o.ride (s.target w) o.party with
              | none => .error (.soldOut, { party := some o.party, t := some (s.target w) })
              | some (i, win) => .ok { index := i, window := win, t := s.target w } := by
  simp only [State.reserveFind, (dayRefusal_none_iff _).mpr hd, (malformed_false_iff o).mpr hm, hu, he,
    Bool.false_eq_true, if_false] <;> rfl

section
variable (hd : s.time.day = .day) (hm : ReserveShaped o) (hu : s.units.find o.ride = some u)
  (he : s.ests.find o.ride = some e)
include hd hm hu he

theorem reserveFind_guardFalse (hg : s.guardHolds o.guard o.operand o.ride = false) :
    s.reserveFind o = .error (.guardFalse, { party := some o.party, ride := some u.state }) := by
  rw [reserveFind_known hd hm hu he, if_pos hg]

theorem reserveFind_state {c : Code} (hg : s.guardHolds o.guard o.operand o.ride = true)
    (hc : reserveRefusal u.state = some c) :
    s.reserveFind o = .error (c, { party := some o.party, ride := some u.state }) := by
  rw [reserveFind_known hd hm hu he, if_neg (by simp [hg]), hc]

theorem reserveFind_noData (hg : s.guardHolds o.guard o.operand o.ride = true) (hc : reserveRefusal u.state = none)
    (hw : e.wait = none) : s.reserveFind o = .error (.noData, { party := some o.party }) := by
  rw [reserveFind_known hd hm hu he, if_neg (by simp [hg]), hc, hw]

theorem reserveFind_account {w : Wait} {c : Code} {n : Option Nat}
    (hg : s.guardHolds o.guard o.operand o.ride = true) (hc : reserveRefusal u.state = none) (hw : e.wait = some w)
    (ha : s.accountRefusal o.token o.ride = some (c, n)) :
    s.reserveFind o = .error (c, { party := some o.party, conflict := n }) := by
  rw [reserveFind_known hd hm hu he, if_neg (by simp [hg]), hc, hw, ha]

theorem reserveFind_search {w : Wait} (hg : s.guardHolds o.guard o.operand o.ride = true)
    (hc : reserveRefusal u.state = none) (hw : e.wait = some w) (ha : s.accountRefusal o.token o.ride = none) :
    s.reserveFind o = match s.searchWindow o.ride (s.target w) o.party with
      | none => .error (.soldOut, { party := some o.party, t := some (s.target w) })
      | some (i, win) => .ok { index := i, window := win, t := s.target w } := by
  rw [reserveFind_known hd hm hu he, if_neg (by simp [hg]), hc, hw, ha]

end

/-- A RESERVE that finds a window has passed every check before it (R111 to R113). -/
theorem reserveFind_ok_iff (s : State) (o : ReserveOps) (f : Found) : s.reserveFind o = .ok f ↔
    s.time.day = .day ∧ ReserveShaped o ∧ ∃ (u : RideUnit) (e : Estimator) (w : Wait),
      s.units.find o.ride = some u ∧ s.ests.find o.ride = some e ∧ s.guardHolds o.guard o.operand o.ride = true ∧
      (u.state = .opened ∨ ∃ c, u.state = .held c) ∧ e.wait = some w ∧
      (∀ c n, ¬AccountRefuses s o.token o.ride c n) ∧ f.t = s.minute + max s.time.params.lead w.value ∧
      LowestWindow (s.rideBook o.ride).windows f.t o.party f.index f.window := by
  constructor
  · intro h
    have hd := State.day_of_reserveFind_ok h
    have hm : ReserveShaped o := by
      by_contra hm
      rw [reserveFind_malformed hd hm] at h
      cases h
    cases hu : s.units.find o.ride with
    | none =>
      rw [reserveFind_unknown hd hm (.inl hu)] at h
      cases h
    | some u =>
    cases he : s.ests.find o.ride with
    | none =>
      rw [reserveFind_unknown hd hm (.inr he)] at h
      cases h
    | some e =>
    cases hg : s.guardHolds o.guard o.operand o.ride with
    | false =>
      rw [reserveFind_guardFalse hd hm hu he hg] at h
      cases h
    | true =>
    cases hc : reserveRefusal u.state with
    | some c =>
      rw [reserveFind_state hd hm hu he hg hc] at h
      cases h
    | none =>
    cases hw : e.wait with
    | none =>
      rw [reserveFind_noData hd hm hu he hg hc hw] at h
      cases h
    | some w =>
    cases ha : s.accountRefusal o.token o.ride with
    | some x =>
      rw [reserveFind_account hd hm hu he hg hc hw ha] at h
      cases h
    | none =>
    rw [reserveFind_search hd hm hu he hg hc hw ha] at h
    cases hs : s.searchWindow o.ride (s.target w) o.party with
    | none =>
      rw [hs] at h
      cases h
    | some x =>
      rw [hs] at h
      cases h
      exact ⟨hd, hm, u, e, w, rfl, rfl, rfl, (reserveRefusal_none_iff _).mp hc, hw, (accountRefusal_none_iff _ _ _).mp ha,
        rfl, (searchWindow_some_iff _ _ _ _ _ _).mp hs⟩
  · rintro ⟨hd, hm, u, e, w, hu, he, hg, hst, hw, ha, ht, hl⟩
    have ht : s.target w = f.t := ht.symm
    rw [reserveFind_search hd hm hu he hg ((reserveRefusal_none_iff _).mpr hst) hw ((accountRefusal_none_iff _ _ _).mpr ha),
      ht, (searchWindow_some_iff _ _ _ _ _ _).mpr hl]

end

/-! ### The party-1 quote (R118) and the guards (R179) -/

theorem quote_window_iff {s : State} {r : Nat} {u : RideUnit} {e : Estimator} (hu : s.units.find r = some u)
    (he : s.ests.find r = some e) (x : Window) : (s.quote r).window = some x ↔
      s.time.day = .day ∧ (u.state = .opened ∨ ∃ c, u.state = .held c) ∧ ∃ w i, e.wait = some w ∧
        LowestWindow (s.rideBook r).windows (s.minute + max s.time.params.lead w.value) 1 i x := by
  unfold State.quote
  rw [hu, he]
  constructor
  · intro h
    split at h
    · cases h
    next hd =>
      dsimp only at h
      split at h
      · cases h
      next hc =>
        split at h
        · cases h
        next w hw =>
          split at h
          · cases h
          next i win hs =>
            cases h
            exact ⟨(dayRefusal_none_iff _).mp hd, (reserveRefusal_none_iff _).mp hc, w, i, hw,
              (searchWindow_some_iff _ _ _ _ _ _).mp hs⟩
  · rintro ⟨hd, hst, w, i, hw, hl⟩
    have hs : s.searchWindow r (s.target w) 1 = some (i, x) := (searchWindow_some_iff _ _ _ _ _ _).mpr hl
    simp only [(dayRefusal_none_iff _).mpr hd, (reserveRefusal_none_iff _).mpr hst, hw, hs]

theorem isHeld_iff (st : RideState) : st.isHeld = true ↔ ∃ c, st = .held c := by cases st <;> simp [RideState.isHeld]

theorem isDown_iff (st : RideState) : st.isDown = true ↔ ∃ c, st = .down c := by cases st <;> simp [RideState.isDown]

theorem isTesting_iff (st : RideState) : st.isTesting = true ↔ ∃ c, st = .testing c := by
  cases st <;> simp [RideState.isTesting]

theorem guardHolds_cases (s : State) (r n : Nat) (u : RideUnit) (e : Estimator) (f : FieldRecord)
    (hu : s.units.find r = some u) (he : s.ests.find r = some e) (hf : s.poller.records.find r = some f) :
    s.guardHolds 0 n r = true ∧
    (s.guardHolds 1 n r = true ↔ u.state = .opened) ∧
    (s.guardHolds 2 n r = true ↔ u.state ≠ .opened) ∧
    (s.guardHolds 3 n r = true ↔ ∃ c, u.state = .held c) ∧
    (s.guardHolds 4 n r = true ↔ ∃ c, u.state = .down c) ∧
    (s.guardHolds 5 n r = true ↔ u.state = .closed) ∧
    (s.guardHolds 6 n r = true ↔ ∃ c, u.state = .testing c) ∧
    (s.guardHolds 7 n r = true ↔ ∃ w, e.wait = some w ∧ n ≤ w.value) ∧
    (s.guardHolds 8 n r = true ↔ ∃ w, e.wait = some w ∧ w.value < n) ∧
    (s.guardHolds 9 n r = true ↔ f.link = .lost) ∧
    (s.guardHolds 10 n r = true ↔ s.time.day = .day ∧ (u.state = .opened ∨ ∃ c, u.state = .held c) ∧
      ∃ w i x, e.wait = some w ∧
        LowestWindow (s.rideBook r).windows (s.minute + max s.time.params.lead w.value) 1 i x ∧
        n ≤ x.cap - x.issued - x.hold) := by
  simp only [State.guardHolds, hu, he, hf, decide_eq_true_eq, isHeld_iff, isDown_iff, isTesting_iff, true_and, iff_self]
  refine ⟨?_, ?_, ?_⟩
  · cases e.wait <;> simp
  · cases e.wait <;> simp
  · have hwindow := quote_window_iff hu he
    cases hq : (s.quote r).window with
    | none =>
      simp only [hq, reduceCtorEq, false_iff] at hwindow
      simp only [Bool.false_eq_true, false_iff]
      rintro ⟨hd, hst, w, i, x, hw, hl, -⟩
      exact hwindow x ⟨hd, hst, w, i, hw, hl⟩
    | some y =>
      obtain ⟨hd, hst, w, i, hw, hl⟩ := (hwindow y).mp hq
      simp only [decide_eq_true_eq]
      constructor
      · exact fun hn => ⟨hd, hst, w, i, y, hw, hl, hn⟩
      · rintro ⟨-, -, w', i', x, hw', hl', hn⟩
        have hx : (s.quote r).window = some x := (hwindow x).mpr ⟨hd, hst, w', i', hw', hl'⟩
        rw [hq] at hx
        cases hx
        exact hn

/-- Settles O26: the checks of a RESERVE in their order, the lowest window with room, and the guards. -/
theorem reserveFindsLowestWindow : Obligations.ReserveFindsLowestWindow := by
  refine ⟨fun s o => ⟨reserveFind_ok_iff s o, fun hd => State.reserveFind_of_dayRefusal o (by rw [hd]; rfl), fun hd => ?_,
    reserveFind_malformed, reserveFind_unknown, fun u e hd hm hu he => ⟨reserveFind_guardFalse hd hm hu he, fun hg =>
      ⟨?_, ?_, ?_, fun hst => ?_⟩⟩⟩, guardHolds_cases⟩
  · rcases hd with hd | hd <;> exact State.reserveFind_of_dayRefusal o (by rw [hd]; rfl)
  · rintro ⟨c, hc⟩
    exact reserveFind_state hd hm hu he hg (by rw [hc]; rfl)
  · rintro ⟨c, hc⟩
    exact reserveFind_state hd hm hu he hg (by rw [hc]; rfl)
  · rintro (hc | hc) <;> exact reserveFind_state hd hm hu he hg (by rw [hc]; rfl)
  · have hc := (reserveRefusal_none_iff _).mpr hst
    refine ⟨reserveFind_noData hd hm hu he hg hc, fun w t hw ht => ⟨fun c n ha => ?_, fun ha hroom => ?_⟩⟩
    · exact reserveFind_account hd hm hu he hg hc hw ((accountRefusal_some_iff _ _ _ _ _).mpr ha)
    · have ht : s.target w = t := ht.symm
      rw [reserveFind_search hd hm hu he hg hc hw ((accountRefusal_none_iff _ _ _).mpr ha), ht,
        (searchWindow_none_iff _ _ _ _).mpr hroom]

end Sys2Proof.Machine
end

section
/-! What the Return Book's operations do to what it keeps for a ride. -/

namespace Sys2Proof.Machine

open Sys2Proof.Safety

/-! ### The book of a ride, read after a write -/

theorem rideBook_congr {s t : State} (h : s.book.rides = t.book.rides) (r : Nat) : s.rideBook r = t.rideBook r := by
  rw [State.rideBook, State.rideBook, h]

theorem rideBook_of_find {s : State} {r : Nat} {b : RideBook} (h : s.book.rides.find r = some b) : s.rideBook r = b := by
  rw [State.rideBook, h, Option.getD_some]

theorem modBook_rideBook {s : State} {r : Nat} {b : RideBook} (h : s.book.rides.find r = some b)
    (f : RideBook → RideBook) : (s.modBook r f).rideBook r = f b := by
  simp [State.rideBook, h]

/-- A ride the book holds nothing for is not written. -/
theorem modBook_absent {s : State} {r : Nat} (h : s.book.rides.find r = none) (f : RideBook → RideBook) :
    s.modBook r f = s := by
  rw [State.modBook, update_of_find_none _ _ _ h]

theorem modBook_others (r : Nat) (f : RideBook → RideBook) (s : State) :
    OthersKept r s.book.rides (s.modBook r f).book.rides := fun j hj => by simp [Ne.symm hj]

/-- The book of a ride it holds something for is one with a window, a guest or a level. -/
theorem find_of_rideBook_ne {s : State} {r : Nat} (h : s.rideBook r ≠ {}) : s.book.rides.find r = some (s.rideBook r) := by
  cases hf : s.book.rides.find r with
  | none => exact absurd (by rw [State.rideBook, hf]; rfl) h
  | some b => rw [rideBook_of_find hf]

theorem rideBook_of_absent {s : State} {r : Nat} (h : s.book.rides.find r = none) : s.rideBook r = {} := by
  rw [State.rideBook, h]
  rfl

theorem find_of_window {s : State} {r i : Nat} {w : Window} (h : (s.rideBook r).windows[i]? = some w) :
    s.book.rides.find r = some (s.rideBook r) :=
  find_of_rideBook_ne fun hb => by simp [hb] at h

/-! ### What may change of a ride's book while only its levels are judged -/

/-- The book of ride `r` has other levels at most, and the books of the other rides are as they were. -/
structure LevelsOnly (r : Nat) (s t : State) : Prop where
  others : OthersKept r s.book.rides t.book.rides
  windows : (t.rideBook r).windows = (s.rideBook r).windows
  f : (t.rideBook r).f = (s.rideBook r).f
  u : (t.rideBook r).u = (s.rideBook r).u
  gridEnded : (t.rideBook r).gridEnded = (s.rideBook r).gridEnded

theorem othersKept_refl {α : Type} (k : Nat) (t : Table α) : OthersKept k t t := fun _ _ => rfl

theorem othersKept_trans {α : Type} {k : Nat} {a b c : Table α} (h : OthersKept k a b) (g : OthersKept k b c) :
    OthersKept k a c := fun j hj => (g j hj).trans (h j hj)

theorem othersKept_of_eq {α : Type} (k : Nat) {a b : Table α} (h : b = a) : OthersKept k a b := h ▸ othersKept_refl k a

theorem LevelsOnly.refl (r : Nat) (s : State) : LevelsOnly r s s := ⟨othersKept_refl _ _, rfl, rfl, rfl, rfl⟩

theorem LevelsOnly.trans {r : Nat} {s t u : State} (h : LevelsOnly r s t) (g : LevelsOnly r t u) : LevelsOnly r s u :=
  ⟨othersKept_trans h.others g.others, g.windows.trans h.windows, g.f.trans h.f, g.u.trans h.u,
    g.gridEnded.trans h.gridEnded⟩

theorem levelsOnly_of_rides {r : Nat} {s t : State} (h : t.book.rides = s.book.rides) : LevelsOnly r s t := by
  have hb := rideBook_congr h r
  exact ⟨othersKept_of_eq r h, by rw [hb], by rw [hb], by rw [hb], by rw [hb]⟩

/-- A write of a ride's book that leaves all but its levels leaves all but its levels. -/
theorem levelsOnly_modBook (r : Nat) (s : State) (f : RideBook → RideBook)
    (h : ∀ b, (f b).windows = b.windows ∧ (f b).f = b.f ∧ (f b).u = b.u ∧ (f b).gridEnded = b.gridEnded) :
    LevelsOnly r s (s.modBook r f) := by
  cases hb : s.book.rides.find r with
  | none =>
    rw [modBook_absent hb]
    exact .refl r s
  | some b =>
    obtain ⟨hw, hf, hu, hg⟩ := h b
    refine ⟨modBook_others r f s, ?_, ?_, ?_, ?_⟩ <;> rw [modBook_rideBook hb, rideBook_of_find hb]
    · exact hw
    · exact hf
    · exact hu
    · exact hg

theorem judgeSlots_levels (r : Nat) (s : State) : LevelsOnly r s (judgeSlots r s) := by
  unfold judgeSlots
  split
  · exact .refl r s
  · exact LevelsOnly.trans
      (levelsOnly_modBook r s (fun b => { b with slotsLevel := s.slotsHold r }) fun _ => ⟨rfl, rfl, rfl, rfl⟩)
      (levelsOnly_of_rides (by simp))

theorem judgeFlex_levels (r : Nat) (s : State) : LevelsOnly r s (judgeFlex r s) := by
  unfold judgeFlex
  dsimp only
  split
  · exact .refl r s
  · exact LevelsOnly.trans
      (levelsOnly_modBook r s (fun b => { b with flexLevel := decide (0 < (s.rideBook r).u) })
        fun _ => ⟨rfl, rfl, rfl, rfl⟩)
      (levelsOnly_of_rides (by simp))

theorem judgeBook_levels (r : Nat) (s : State) : LevelsOnly r s (judgeBook s) := levelsOnly_of_rides (by simp)

/-- The condition of the SLOTS level is about windows, the unit, the minute and the parameters (R98). -/
theorem slotsHold_congr {r : Nat} {s t : State} (hw : (t.rideBook r).windows = (s.rideBook r).windows)
    (hg : (t.rideBook r).gridEnded = (s.rideBook r).gridEnded) (hu : t.units = s.units) (ht : t.time = s.time) :
    t.slotsHold r = s.slotsHold r := by
  have hlead : leadIndex (t.rideBook r) t.minute = leadIndex (s.rideBook r) s.minute := by
    unfold leadIndex State.minute
    rw [hw, hg, ht]
  have hfree : freeSum (t.rideBook r) t.minute = freeSum (s.rideBook r) s.minute := by
    unfold freeSum
    rw [hlead, hw]
  rw [State.slotsHold, State.slotsHold, hu, hfree, ht]

theorem LevelsOnly.slotsHold {r : Nat} {s t : State} (h : LevelsOnly r s t) (hu : t.units = s.units)
    (ht : t.time = s.time) : t.slotsHold r = s.slotsHold r := slotsHold_congr h.windows h.gridEnded hu ht

theorem LevelsOnly.allResolved {r : Nat} {s t : State} (h : LevelsOnly r s t) : t.allResolved r = s.allResolved r := by
  rw [State.allResolved, State.allResolved, h.windows]

/-- Once SLOTS is judged, its level is its condition. -/
theorem judgeSlots_level {r : Nat} {s : State} {b : RideBook} (hb : s.book.rides.find r = some b) :
    (judgeSlots r s).book.rides.find r = some { b with slotsLevel := (judgeSlots r s).slotsHold r } := by
  have hhold : (judgeSlots r s).slotsHold r = s.slotsHold r := (judgeSlots_levels r s).slotsHold (by simp) (by simp)
  rw [hhold]
  unfold judgeSlots
  split
  next h => rw [h, rideBook_of_find hb, hb]
  next => simp [hb]

/-- Once FLEX is judged, its level is its condition. -/
theorem judgeFlex_level {r : Nat} {s : State} {b : RideBook} (hb : s.book.rides.find r = some b) :
    (judgeFlex r s).book.rides.find r = some { b with flexLevel := decide (0 < b.u) } := by
  unfold judgeFlex
  dsimp only
  split
  next h =>
    rw [rideBook_of_find hb] at h
    rw [h, hb]
  next => simp [rideBook_of_find hb, hb]

theorem judgeBook_level (s : State) : (judgeBook s).book.bookLevel = s.book.holds := by
  unfold judgeBook
  split
  next h => exact h.symm
  next => simp

/-! ### Placement (R96, R97) -/

/-- What placement and marks leave of a window: all but its hold and whether it was interrupted. -/
def Window.frame (w : Window) : Window := { w with hold := 0, interrupted := false }

/-- What the frames of two lists of windows tell is the same for both. -/
theorem map_eq_of_frame {α : Type} {ws xs : List Window} (h : ws.map Window.frame = xs.map Window.frame)
    (f : Window → α) (hf : ∀ w, f w.frame = f w) : ws.map f = xs.map f := by
  have hframe : ∀ ws : List Window, ws.map f = (ws.map Window.frame).map f := fun ws => by
    rw [List.map_map]
    exact List.map_congr_left fun w _ => (hf w).symm
  rw [hframe ws, hframe xs, h]

theorem placeWalk_frame (u : Nat) (ws : List Window) :
    (placeWalk u ws).2.map Window.frame = ws.map Window.frame := by
  induction ws generalizing u with
  | nil => rfl
  | cons w ws ih =>
    unfold placeWalk
    split <;> simp [ih, Window.frame]

theorem place_frame (m : Nat) (b : RideBook) : (b.place m).windows.map Window.frame = b.windows.map Window.frame := by
  unfold RideBook.place
  split
  · rfl
  next i _ =>
    simp only [List.map_append, placeWalk_frame]
    rw [← List.map_append, List.take_append_drop]

theorem place_resolved (m : Nat) (b : RideBook) : (b.place m).windows.map (·.resolved) = b.windows.map (·.resolved) :=
  map_eq_of_frame (place_frame m b) _ fun _ => rfl

theorem place_f (m : Nat) (b : RideBook) : (b.place m).f = b.f := by
  unfold RideBook.place
  split <;> rfl

theorem place_gridEnded (m : Nat) (b : RideBook) : (b.place m).gridEnded = b.gridEnded := by
  unfold RideBook.place
  split <;> rfl

/-- Placement runs for an OPEN ride with unplaced guests (R96). -/
def State.placeRuns (s : State) (r : Nat) : Prop :=
  (s.units.find r).map (·.state) = some .opened ∧ 0 < (s.rideBook r).u

theorem place_rideBook (r : Nat) (s : State) :
    (s.placeRuns r → (place r s).rideBook r = (s.rideBook r).place s.minute) ∧
    (¬s.placeRuns r → place r s = s) := by
  unfold State.placeRuns place
  cases hu : s.units.find r with
  | none => simp
  | some u =>
    simp only [Option.map_some, Option.some.injEq]
    refine ⟨fun h => ?_, fun h => if_neg h⟩
    have hb : s.book.rides.find r = some (s.rideBook r) := find_of_rideBook_ne fun hb => by simp [hb] at h
    rw [if_pos h, modBook_rideBook hb]

theorem place_others (r : Nat) (s : State) : OthersKept r s.book.rides (place r s).book.rides := by
  unfold place
  split
  · exact othersKept_refl _ _
  · split
    · exact modBook_others _ _ _
    · exact othersKept_refl _ _

/-! ### What a state change report may do to the book: marks and holds (R90, R91, R97) -/

/-- The windows of ride `r` stand but for holds and marks, its guests outside windows are as many, and the other rides'
books are as they were. -/
structure BookHeard (r : Nat) (s t : State) : Prop where
  others : OthersKept r s.book.rides t.book.rides
  frame : (t.rideBook r).windows.map Window.frame = (s.rideBook r).windows.map Window.frame
  f : (t.rideBook r).f = (s.rideBook r).f
  passes : PassesKept s t

theorem passesKept_trans {s t u : State} (h : PassesKept s t) (g : PassesKept t u) : PassesKept s u :=
  ⟨g.passes.trans h.passes, g.retired.trans h.retired, g.serial.trans h.serial, g.accounts.trans h.accounts,
    g.activeCount.trans h.activeCount, g.bookLevel.trans h.bookLevel⟩

theorem passesKept_of_eq {s t : State} (h : t.book = s.book) : PassesKept s t := by
  constructor <;> rw [h]

theorem BookHeard.trans {r : Nat} {s t u : State} (h : BookHeard r s t) (g : BookHeard r t u) : BookHeard r s u :=
  ⟨othersKept_trans h.others g.others, g.frame.trans h.frame, g.f.trans h.f, passesKept_trans h.passes g.passes⟩

theorem bookHeard_of_rides {r : Nat} {s t : State} (h : t.book.rides = s.book.rides) (hp : PassesKept s t) :
    BookHeard r s t := by
  have hb := rideBook_congr h r
  exact ⟨othersKept_of_eq r h, by rw [hb], by rw [hb], hp⟩

theorem BookHeard.refl (r : Nat) (s : State) : BookHeard r s s := bookHeard_of_rides rfl (passesKept_of_eq rfl)

theorem bookHeard_of_levels {r : Nat} {s t : State} (h : LevelsOnly r s t) (hp : PassesKept s t) : BookHeard r s t :=
  ⟨h.others, by rw [h.windows], h.f, hp⟩

theorem BookHeard.resolved {r : Nat} {s t : State} (h : BookHeard r s t) :
    (t.rideBook r).windows.map (·.resolved) = (s.rideBook r).windows.map (·.resolved) :=
  map_eq_of_frame h.frame _ fun _ => rfl

theorem BookHeard.allResolved {r : Nat} {s t : State} (h : BookHeard r s t) : t.allResolved r = s.allResolved r := by
  have hall : ∀ ws : List Window, ws.all (·.resolved) = (ws.map (·.resolved)).all id := fun ws => by
    rw [List.all_map]
    rfl
  rw [State.allResolved, State.allResolved, hall, hall, h.resolved]

theorem place_heard (r : Nat) (s : State) : BookHeard r s (place r s) := by
  by_cases h : s.placeRuns r
  · have hb := (place_rideBook r s).1 h
    exact ⟨place_others r s, by rw [hb, place_frame], by rw [hb, place_f], by constructor <;> simp⟩
  · rw [(place_rideBook r s).2 h]
    exact .refl r s

theorem mark_frame (m : Nat) (w : Window) : (w.mark m).frame = w.frame := by
  unfold Window.mark
  split <;> rfl

/-- What the entry minute of a state out of service marks in a book (R91). -/
def RideBook.marked (since : Option Nat) (b : RideBook) : RideBook :=
  match since with
  | none => b
  | some t => { b with windows := b.windows.map (Window.mark (t / 60)) }

theorem markWindows_rideBook (r : Nat) (since : Option Nat) (s : State) :
    (markWindows r since s).rideBook r = (s.rideBook r).marked since := by
  unfold markWindows
  cases since with
  | none => rfl
  | some t =>
    dsimp only
    cases hb : s.book.rides.find r with
    | none =>
      rw [modBook_absent hb, rideBook_of_absent hb]
      rfl
    | some b =>
      rw [modBook_rideBook hb, rideBook_of_find hb]
      rfl

theorem marked_f (since : Option Nat) (b : RideBook) : (b.marked since).f = b.f := by
  cases since <;> rfl

theorem marked_u (since : Option Nat) (b : RideBook) : (b.marked since).u = b.u := by
  cases since <;> rfl

theorem marked_frame (since : Option Nat) (b : RideBook) :
    (b.marked since).windows.map Window.frame = b.windows.map Window.frame := by
  cases since <;> simp [RideBook.marked, mark_frame]

theorem markWindows_heard (r : Nat) (since : Option Nat) (s : State) : BookHeard r s (markWindows r since s) := by
  have hb := markWindows_rideBook r since s
  refine ⟨?_, by rw [hb, marked_frame], by rw [hb, marked_f], by constructor <;> simp⟩
  cases since with
  | none => exact othersKept_refl _ _
  | some t => exact modBook_others _ _ _

theorem bookHears_heard (r : Nat) (new : RideState) (since : Option Nat) (s : State) :
    BookHeard r s (bookHears r new since s) := by
  have hslots : ∀ t, BookHeard r t (judgeSlots r t) := fun t =>
    bookHeard_of_levels (judgeSlots_levels r t) (by constructor <;> simp)
  have hflex : ∀ t, BookHeard r t (judgeFlex r t) := fun t =>
    bookHeard_of_levels (judgeFlex_levels r t) (by constructor <;> simp)
  rw [bookHears_eq, bookTakes]
  cases hs : new.inService with
  | true =>
    rw [if_pos rfl]
    split
    · exact ((place_heard r s).trans (hflex _)).trans (hslots _)
    · exact hslots s
  | false =>
    have hopen : new ≠ .opened := by
      rintro rfl
      cases hs
    rw [if_neg hopen, if_neg Bool.false_ne_true]
    exact (markWindows_heard r since s).trans (hslots _)

/-- A report of a state out of service marks the windows, and does nothing else to them (R90, R91). -/
theorem bookHears_out {new : RideState} (r : Nat) (since : Option Nat) (s : State) (h : new.inService = false) :
    LevelsOnly r (markWindows r since s) (bookHears r new since s) := by
  have hopen : new ≠ .opened := by
    rintro rfl
    cases h
  rw [bookHears_eq, bookTakes, h, if_neg hopen, if_neg Bool.false_ne_true]
  exact judgeSlots_levels r _

theorem takeLate_heard (r : Nat) (s : State) : BookHeard r s (takeLate (fun x => x.ride = r) s) := by
  unfold takeLate
  have hstart : BookHeard r s
      { s with book := { s.book with late := s.book.late.filter fun rep => !decide (rep.ride = r) } } :=
    bookHeard_of_rides rfl (by constructor <;> rfl)
  refine hstart.trans ?_
  generalize { s with book := { s.book with late := s.book.late.filter fun rep => !decide (rep.ride = r) } } = t
  have hall : ∀ rep ∈ s.book.late.filter fun x => decide (x.ride = r), rep.ride = r := fun rep h => by
    simpa using (List.mem_filter.mp h).2
  generalize s.book.late.filter (fun x => decide (x.ride = r)) = reps at hall
  induction reps generalizing t with
  | nil => exact .refl r t
  | cons rep reps ih =>
    have hride : rep.ride = r := hall rep List.mem_cons_self
    rw [List.foldl_cons, hride]
    exact (bookHears_heard r rep.new rep.since t).trans (ih _ fun x hx => hall x (List.mem_cons_of_mem _ hx))

theorem reportToBook_heard (rep : StateReport) (s : State) : BookHeard rep.ride s (reportToBook rep s) := by
  unfold reportToBook
  split
  · exact bookHeard_of_rides (by simp) (by constructor <;> simp)
  · have hdraw : BookHeard rep.ride s (if s.meetsGraceEnd rep then s.takeGraceOrder.2 else s) := by
      split
      · exact bookHeard_of_rides (by simp) (by constructor <;> simp)
      · exact .refl _ _
    exact (hdraw.trans (takeLate_heard rep.ride _)).trans (bookHears_heard rep.ride rep.new rep.since _)

end Sys2Proof.Machine
end

section
/-! What a change of a ride's state does: to its estimator, its boards, its notices and its book. -/

namespace Sys2Proof.Machine

open Sys2Proof.Safety

/-! ### The estimator of a ride that changes state (R60, R66, R73, R76) -/

/-- The wait that is set is the wait that stands. -/
theorem setWait_ests (r : Nat) (w : Option Wait) (s : State) (j : Nat) :
    (setWait r w s).ests.find j = if r = j then (s.ests.find j).map fun e => { e with wait := w } else s.ests.find j := by
  cases he : s.ests.find r with
  | none =>
    have hsame : setWait r w s = s := by simp [setWait, he]
    rw [hsame]
    split
    next h =>
      rw [← h, he]
      rfl
    next => rfl
  | some e =>
    simp only [setWait, he]
    split
    next hw =>
      split
      next h =>
        rw [← h, he, ← hw]
        rfl
      next => rfl
    next =>
      split
      · split <;> simp
      · simp

/-- The wait that is set depends on the estimators alone. -/
theorem setWait_ests_congr (r : Nat) (w : Option Wait) {s t : State} (h : t.ests = s.ests) :
    (setWait r w t).ests = (setWait r w s).ests := by
  have hform : ∀ s : State, (setWait r w s).ests = if (s.ests.find r).map (·.wait) = some w then s.ests
      else s.ests.update r fun e => { e with wait := w } := by
    intro s
    cases he : s.ests.find r with
    | none => simp [setWait, he, update_of_find_none]
    | some e =>
      simp only [setWait, he, Option.map_some, Option.some.injEq]
      split
      · rfl
      · split
        · split <;> simp
        · simp
  rw [hform, hform, h]

/-- What the ride's configuration and state make of an estimate. -/
def Estimator.heard (p : Params) (u : Option RideUnit) (new : RideState) (e : Estimator) : Estimator :=
  if new.inService then
    match u with
    | none => e.hears new
    | some u => if (e.hears new).stale then ((e.hears new).compute p u).1
        else { ((e.hears new).compute p u).1 with renew := false, wait := some ((e.hears new).compute p u).2 }
  else { e.hears new with wait := none }

theorem estimatorHears_find (r : Nat) (new : RideState) (s : State) (j : Nat) :
    (estimatorHears r new s).ests.find j =
      if r = j then (s.ests.find j).map (Estimator.heard s.time.params (s.units.find r) new) else s.ests.find j := by
  rw [estimatorHears_eq]
  by_cases hj : r = j
  · subst hj
    rw [if_pos rfl]
    cases he : s.ests.find r with
    | none =>
      have hnone : (s.modEst r (Estimator.hears new)).ests.find r = none := by simp [he]
      rw [hnone]
      split <;> simp [setWait_ests, he]
    | some e =>
      have hsome : (s.modEst r (Estimator.hears new)).ests.find r = some (e.hears new) := by simp [he]
      rw [hsome]
      unfold Estimator.heard
      split
      · dsimp only
        cases hu : s.units.find r with
        | none => split <;> simp [computeOnly, publishNow, hu, he]
        | some u =>
          split
          next hstale => simp [computeOnly, hu, he, hstale]
          next hstale => simp [publishNow, hu, he, setWait_ests, hstale]
      · simp [setWait_ests, he]
  · rw [if_neg hj]
    split
    · split
      · split
        · unfold computeOnly
          split <;> simp [hj]
        · unfold publishNow
          split <;> simp [setWait_ests, hj]
      · simp [hj]
    · simp [setWait_ests, hj]

theorem compute_congr (p : Params) {u v : RideUnit} (hc : v.config = u.config) (hs : v.state = u.state) (e : Estimator) :
    e.compute p v = e.compute p u := by
  rw [Estimator.compute, Estimator.compute, hc, hs]

/-- What the estimators become depends on them, on the ride's configuration and state, and on the parameters alone. -/
theorem estimatorHears_ests_congr (r : Nat) (new : RideState) {s t : State} {u v : RideUnit} (he : t.ests = s.ests)
    (hu : s.units.find r = some u) (hv : t.units.find r = some v) (hc : v.config = u.config) (hs : v.state = u.state)
    (hp : t.time.params = s.time.params) : (estimatorHears r new t).ests = (estimatorHears r new s).ests := by
  have hmod : (t.modEst r (Estimator.hears new)).ests = (s.modEst r (Estimator.hears new)).ests := by simp [he]
  have hcompute := compute_congr s.time.params hc hs
  rw [estimatorHears_eq, estimatorHears_eq, hmod]
  split
  · cases hfind : (s.modEst r (Estimator.hears new)).ests.find r with
    | none => exact hmod
    | some e =>
      dsimp only
      split
      · simp [computeOnly, hu, hv, hp, hcompute, he]
      · have hfind' := (congrArg (Table.find · r) hmod).trans hfind
        simp only [publishNow, State.modEst_units, State.modEst_time, hu, hv, hp, hfind, hfind', hcompute]
        exact setWait_ests_congr r _ (by simp [he])
  · exact setWait_ests_congr r none hmod

/-! ### The boards of a ride that changes state (R80) -/

theorem blinkFor_idem (n r : Nat) (l : Line) : (l.blinkFor n r).blinkFor n r = l.blinkFor n r := by
  unfold Line.blinkFor
  by_cases h : l.shown = some r
  · rw [if_pos h, if_pos h]
  · rw [if_neg h, if_neg h]

theorem each_each {α β γ : Type} (t : Table α) (f : Nat → α → β) (g : Nat → β → γ) :
    (t.each f).each g = t.each fun k x => g k (f k x) := by
  induction t with
  | nil => rfl
  | cons x t ih =>
    rw [Table.each, Table.each, Table.each, ih]

theorem blinkRide_idem (r : Nat) {s t : State} (ht : t.time = s.time) (hb : t.boards = (blinkRide r s).boards) :
    (blinkRide r t).boards = (blinkRide r s).boards := by
  have hcomp : (Line.blinkFor s.time.params.blinkPasses r ∘ Line.blinkFor s.time.params.blinkPasses r) =
      Line.blinkFor s.time.params.blinkPasses r := funext fun l => blinkFor_idem _ _ _
  simp only [blinkRide] at hb ⊢
  rw [hb, ht, each_each]
  simp only [List.map_map, hcomp]

/-- A receiver of a report leaves the boards, or blinks the ride's lines. -/
theorem setWait_boards (r : Nat) (w : Option Wait) (s : State) :
    (setWait r w s).boards = s.boards ∨ (setWait r w s).boards = (blinkRide r s).boards := by
  unfold setWait
  split
  · exact .inl rfl
  · dsimp only
    split
    · exact .inl rfl
    · have hblink : (blinkRide r (s.modEst r fun e => { e with wait := w })).boards = (blinkRide r s).boards :=
        blinkRide_boards_congr r rfl rfl
      refine .inr ?_
      split
      · split
        · simp [hblink]
        · exact hblink
      · exact hblink

theorem estimatorHears_boards (r : Nat) (new : RideState) (s : State) :
    (estimatorHears r new s).boards = s.boards ∨ (estimatorHears r new s).boards = (blinkRide r s).boards := by
  have hcongr : ∀ (w : Option Wait) (t : State), t.time = s.time → t.boards = s.boards →
      (setWait r w t).boards = s.boards ∨ (setWait r w t).boards = (blinkRide r s).boards := by
    intro w t ht hb
    rw [← blinkRide_boards_congr r ht hb, ← hb]
    exact setWait_boards r w t
  rw [estimatorHears_eq]
  split
  · split
    · split
      · refine .inl ?_
        unfold computeOnly
        split <;> rfl
      · unfold publishNow
        split
        · exact hcongr _ (State.modEst _ r _) rfl rfl
        · exact .inl rfl
    · exact .inl rfl
  · exact hcongr _ (State.modEst _ r _) rfl rfl

/-! ### The images of the notices (R158, R162) -/

theorem setWait_image (r : Nat) (w : Option Wait) (s : State) (id : SlotId) :
    ((setWait r w s).slot id).image = (s.slot id).image := by
  have hblink : ∀ f, (blinkRide r (s.modEst r f)).slot id = s.slot id := fun f => slot_congr rfl id
  unfold setWait
  split
  · rfl
  · dsimp only
    split
    · rfl
    · split
      · split
        · rw [reportEvent_image, hblink]
        · rw [hblink]
      · rw [hblink]

theorem estimatorHears_image (r : Nat) (new : RideState) (s : State) (id : SlotId) :
    ((estimatorHears r new s).slot id).image = (s.slot id).image := by
  rw [estimatorHears_eq]
  split
  · split
    · split
      · unfold computeOnly
        split <;> rfl
      · unfold publishNow
        split
        · exact setWait_image _ _ _ _
        · rfl
    · rfl
  · exact setWait_image _ _ _ _

/-- The book's notices are SLOTS, FLEX and BOOK. -/
theorem judgeSlots_image (r : Nat) (s : State) (id : SlotId) (h : id.cls ≠ .slots) :
    ((judgeSlots r s).slot id).image = (s.slot id).image := by
  unfold judgeSlots
  split
  · rfl
  · rw [reportLevel_image, if_neg (by rintro rfl; exact h rfl)]
    rfl

theorem judgeFlex_image (r : Nat) (s : State) (id : SlotId) (h : id.cls ≠ .flex) :
    ((judgeFlex r s).slot id).image = (s.slot id).image := by
  unfold judgeFlex
  dsimp only
  split
  · rfl
  · rw [reportLevel_image, if_neg (by rintro rfl; exact h rfl)]
    rfl

theorem bookHears_image (r : Nat) (new : RideState) (since : Option Nat) (s : State) (id : SlotId)
    (hs : id.cls ≠ .slots) (hf : id.cls ≠ .flex) : ((bookHears r new since s).slot id).image = (s.slot id).image := by
  have hmark : ∀ t : State, (markWindows r since t).slot id = t.slot id := fun t => slot_congr (by simp) id
  have hplace : ∀ t : State, (place r t).slot id = t.slot id := fun t => slot_congr (by simp) id
  rw [bookHears_eq, judgeSlots_image _ _ _ hs, bookTakes]
  split
  · rw [judgeFlex_image _ _ _ hf, hplace]
    split
    · rfl
    · rw [hmark]
  · split
    · rfl
    · rw [hmark]

theorem takeLate_image (pick : StateReport → Bool) (s : State) (id : SlotId) (hs : id.cls ≠ .slots)
    (hf : id.cls ≠ .flex) : ((takeLate pick s).slot id).image = (s.slot id).image := by
  have hone : ∀ (t : State) (rep : StateReport),
      ((bookHears rep.ride rep.new rep.since t).slot id).image = (t.slot id).image :=
    fun t rep => bookHears_image rep.ride rep.new rep.since t id hs hf
  unfold takeLate
  rw [foldl_keeps (fun t : State => (t.slot id).image) _ hone]
  rfl

theorem reportToBook_image (rep : StateReport) (s : State) (id : SlotId) (hs : id.cls ≠ .slots) (hf : id.cls ≠ .flex) :
    ((reportToBook rep s).slot id).image = (s.slot id).image := by
  have hdraw : s.takeGraceOrder.2.slot id = s.slot id := slot_congr (by simp) id
  unfold reportToBook
  split
  · exact congrArg (·.image) hdraw
  · rw [bookHears_image _ _ _ _ _ hs hf, takeLate_image _ _ _ hs hf]
    split
    · rw [hdraw]
    · rfl

end Sys2Proof.Machine
end

section
/-! A change of a ride's state as a whole: its report is heard in some order, and the order does not matter. -/

namespace Sys2Proof.Machine

open Sys2Proof.Safety

/-! ### What one hearer does -/

theorem hear_ests (rep : StateReport) (s : State) {h : Hearer} (hh : h ≠ .estimator) : (hear rep s h).ests = s.ests := by
  cases h with
  | estimator => exact absurd rfl hh
  | book => simp [hear]
  | boards => simp [hear]
  | stallNotice =>
    unfold hear
    dsimp only
    split <;> simp
  | stateNotice => simp [hear]

theorem hear_book (rep : StateReport) (s : State) {h : Hearer} (hh : h ≠ .book) : (hear rep s h).book = s.book := by
  cases h with
  | book => exact absurd rfl hh
  | estimator => simp [hear]
  | boards => simp [hear]
  | stallNotice =>
    unfold hear
    dsimp only
    split <;> simp
  | stateNotice => simp [hear]

theorem hear_boards (rep : StateReport) (s : State) (h : Hearer) :
    (hear rep s h).boards = s.boards ∨ (hear rep s h).boards = (blinkRide rep.ride s).boards := by
  cases h with
  | book => exact .inl (by simp [hear])
  | estimator => exact estimatorHears_boards rep.ride rep.new s
  | boards => exact .inr rfl
  | stallNotice =>
    refine .inl ?_
    unfold hear
    dsimp only
    split <;> simp
  | stateNotice => exact .inl (by simp [hear])

/-- The images that a report may change beside STALL are the book's. -/
theorem hear_image (rep : StateReport) (s : State) {h : Hearer} (id : SlotId) (hs : id.cls ≠ .slots) (hf : id.cls ≠ .flex)
    (hh : h ≠ .stallNotice ∨ id ≠ ⟨.stall, rep.ride⟩) : ((hear rep s h).slot id).image = (s.slot id).image := by
  cases h with
  | book => exact reportToBook_image rep s id hs hf
  | estimator => exact estimatorHears_image _ _ _ _
  | boards => rfl
  | stallNotice =>
    have hid : id ≠ ⟨.stall, rep.ride⟩ := hh.resolve_left fun h => h rfl
    unfold hear
    dsimp only
    split
    · rfl
    · rw [reportLevel_image, if_neg hid]
  | stateNotice => exact reportEvent_image _ _ _ _ _

theorem hear_stallNotice (rep : StateReport) (s : State) : hear rep s .stallNotice =
    if rep.new.stalled = rep.prev.stalled then s
    else reportLevel .stall rep.ride rep.new.stalled (if rep.new.stalled then 0 else rep.new.number) s := rfl

theorem hear_heard (rep : StateReport) (s : State) (h : Hearer) : BookHeard rep.ride s (hear rep s h) := by
  by_cases hh : h = .book
  · subst hh
    exact reportToBook_heard rep s
  · have hb := hear_book rep s hh
    exact bookHeard_of_rides (by rw [hb]) (passesKept_of_eq hb)

theorem hears_heard (rep : StateReport) (hs : List Hearer) (s : State) :
    BookHeard rep.ride s (hs.foldl (hear rep) s) := by
  induction hs generalizing s with
  | nil => exact .refl _ s
  | cons h hs ih => exact (hear_heard rep s h).trans (ih _)

theorem foldl_keeps_of_mem {α β : Type} (p : State → β) (f : State → α → State) (xs : List α)
    (h : ∀ x ∈ xs, ∀ s, p (f s x) = p s) (s : State) : p (xs.foldl f s) = p s := by
  induction xs generalizing s with
  | nil => rfl
  | cons x xs ih =>
    rw [List.foldl_cons, ih (fun y hy => h y (List.mem_cons_of_mem _ hy)), h x List.mem_cons_self]

/-! ### The report of a change -/

/-- The report that ride `r` makes as it enters state `new` (R23). -/
def stateReport (r : Nat) (u : RideUnit) (new : RideState) (s : State) : StateReport :=
  { ride := r, prev := u.state, new, since := s.clockNow }

/-- The state as the hearers of a report find it: the ride record is written. -/
structure Entering (r : Nat) (new : RideState) (s x : State) : Prop where
  units : x.units = s.units.update r (RideUnit.enter new s.clockNow)
  time : x.time = s.time
  ests : x.ests = s.ests
  book : x.book = s.book
  boards : x.boards = s.boards
  notices : x.notices = s.notices

/-- The report is heard in some order: a given hearer comes after some and before the others. -/
theorem changeState_split {r : Nat} {u : RideUnit} {s : State} (new : RideState) (hu : s.units.find r = some u)
    (h : Hearer) : ∃ (x : State) (before after : List Hearer), Entering r new s x ∧ h ∉ before ∧ h ∉ after ∧
      changeState r new s = after.foldl (hear (stateReport r u new s))
        (hear (stateReport r u new s) (before.foldl (hear (stateReport r u new s)) x) h) := by
  let x := (s.modUnit r (RideUnit.enter new s.clockNow)).takeReportOrder
  have hchange : changeState r new s = (hearersBy x.1).foldl (hear (stateReport r u new s)) x.2 := by
    simp only [changeState, hu]
    rfl
  have hperm := hearersBy_perm x.1
  have hmem : h ∈ hearersBy x.1 := hperm.mem_iff.mpr (by cases h <;> decide)
  have hnodup : (hearersBy x.1).Nodup := hperm.nodup_iff.mpr (by decide)
  obtain ⟨before, after, hsplit⟩ := List.append_of_mem hmem
  rw [hsplit] at hnodup hchange
  have hdisjoint := List.nodup_append.mp hnodup
  refine ⟨x.2, before, after, ⟨by simp [x], by simp [x], by simp [x], by simp [x], by simp [x], by simp [x]⟩,
    fun hb => hdisjoint.2.2 h hb h List.mem_cons_self rfl, (List.nodup_cons.mp hdisjoint.2.1).1, ?_⟩
  rw [hchange, List.foldl_append, List.foldl_cons]

/-- The hearers before a given one leave time and units. -/
theorem hears_units_time (rep : StateReport) (hs : List Hearer) (x : State) :
    (hs.foldl (hear rep) x).units = x.units ∧ (hs.foldl (hear rep) x).time = x.time :=
  ⟨foldl_keeps (fun s => s.units) _ (fun s h => (hear_keeps rep s h).2.1) hs x,
    foldl_keeps (fun s => s.time) _ (fun s h => (hear_keeps rep s h).1) hs x⟩

theorem changeState_ests {r : Nat} {u : RideUnit} {s : State} (new : RideState) (hu : s.units.find r = some u) :
    (changeState r new s).ests = (estimatorHears r new (s.modUnit r fun u => { u with state := new })).ests := by
  obtain ⟨x, before, after, hx, hbefore, hafter, heq⟩ := changeState_split new hu .estimator
  set rep := stateReport r u new s
  have hb : (before.foldl (hear rep) x).ests = s.ests :=
    (foldl_keeps_of_mem (fun s => s.ests) _ _ (fun h hh s => hear_ests rep s fun he => hbefore (he ▸ hh)) x).trans hx.ests
  have ha : ∀ y, (after.foldl (hear rep) y).ests = y.ests :=
    foldl_keeps_of_mem (fun s => s.ests) _ _ fun h hh s => hear_ests rep s fun he => hafter (he ▸ hh)
  obtain ⟨hunits, htime⟩ := hears_units_time rep before x
  rw [heq, ha]
  refine estimatorHears_ests_congr r new (u := { u with state := new }) (v := u.enter new s.clockNow) hb ?_ ?_ rfl rfl ?_
  · simp [hu]
  · rw [hunits, hx.units]
    simp [hu]
  · rw [htime, hx.time]
    rfl

theorem heard_congr (p : Params) {u v : RideUnit} (hc : v.config = u.config) (hs : v.state = u.state) (new : RideState)
    (e : Estimator) : e.heard p (some v) new = e.heard p (some u) new := by
  simp only [Estimator.heard, compute_congr p hc hs]

theorem changeState_ests_find {r : Nat} {u : RideUnit} {s : State} (new : RideState) (hu : s.units.find r = some u)
    (j : Nat) : (changeState r new s).ests.find j =
      if r = j then (s.ests.find j).map (Estimator.heard s.time.params (some { u with state := new }) new)
      else s.ests.find j := by
  rw [changeState_ests new hu, estimatorHears_find]
  simp [hu]

theorem changeState_boards {r : Nat} {u : RideUnit} {s : State} (new : RideState) (hu : s.units.find r = some u) :
    (changeState r new s).boards = (blinkRide r s).boards := by
  obtain ⟨x, before, after, hx, -, -, heq⟩ := changeState_split new hu .boards
  set rep := stateReport r u new s
  have hbefore : ∀ (hs : List Hearer) (y : State), y.time = s.time →
      y.boards = s.boards ∨ y.boards = (blinkRide r s).boards →
      (hs.foldl (hear rep) y).boards = s.boards ∨ (hs.foldl (hear rep) y).boards = (blinkRide r s).boards := by
    intro hs
    induction hs with
    | nil => exact fun y _ h => h
    | cons h hs ih =>
      intro y ht hy
      have htime : (hear rep y h).time = s.time := (hear_keeps rep y h).1.trans ht
      refine ih _ htime ?_
      rcases hear_boards rep y h with hh | hh
      · rw [hh]
        exact hy
      · rcases hy with hy | hy
        · exact .inr (hh.trans (blinkRide_boards_congr r ht hy))
        · exact .inr (hh.trans (blinkRide_idem r ht hy))
  have hafter : ∀ (hs : List Hearer) (y : State), y.time = s.time → y.boards = (blinkRide r s).boards →
      (hs.foldl (hear rep) y).boards = (blinkRide r s).boards := by
    intro hs
    induction hs with
    | nil => exact fun y _ h => h
    | cons h hs ih =>
      intro y ht hy
      have htime : (hear rep y h).time = s.time := (hear_keeps rep y h).1.trans ht
      refine ih _ htime ?_
      rcases hear_boards rep y h with hh | hh
      · exact hh.trans hy
      · exact hh.trans (blinkRide_idem r ht hy)
  obtain ⟨-, htime⟩ := hears_units_time rep before x
  have ht : (before.foldl (hear rep) x).time = s.time := htime.trans hx.time
  rw [heq]
  refine hafter _ _ ((hear_keeps rep _ _).1.trans ht) ?_
  rcases hbefore before x hx.time (.inl hx.boards) with hb | hb
  · exact blinkRide_boards_congr r ht hb
  · exact blinkRide_idem r ht hb

/-- The images of the levels that are not the book's: STALL follows the state, the others stand. -/
theorem changeState_image {r : Nat} {u : RideUnit} {s : State} (new : RideState) (hu : s.units.find r = some u)
    (id : SlotId) (hs : id.cls ≠ .slots) (hf : id.cls ≠ .flex) : ((changeState r new s).slot id).image =
      if id = ⟨.stall, r⟩ ∧ new.stalled ≠ u.state.stalled then new.stalled else (s.slot id).image := by
  obtain ⟨x, before, after, hx, hbefore, hafter, heq⟩ := changeState_split new hu .stallNotice
  set rep := stateReport r u new s
  have hfold : ∀ hs : List Hearer, Hearer.stallNotice ∉ hs → ∀ y,
      ((hs.foldl (hear rep) y).slot id).image = (y.slot id).image := fun hs hn =>
    foldl_keeps_of_mem (fun s : State => (s.slot id).image) _ _ fun h hh s =>
      hear_image rep s id ‹_› hf (.inl fun he => hn (he ▸ hh))
  have hxs : (x.slot id).image = (s.slot id).image := congrArg (·.image) (slot_congr (by rw [hx.notices]) id)
  have hride : rep.ride = r := rfl
  have hnew : rep.new = new := rfl
  have hprev : rep.prev = u.state := rfl
  rw [heq, hfold after hafter, hear_stallNotice, hride, hnew, hprev]
  split
  next h => rw [hfold before hbefore, hxs, if_neg fun hc => hc.2 h]
  next h =>
    rw [reportLevel_image, hfold before hbefore, hxs]
    by_cases hid : id = ⟨.stall, r⟩
    · rw [if_pos hid, if_pos ⟨hid, h⟩]
    · rw [if_neg hid, if_neg fun hc => hid hc.1]

/-- The book is what the Return Book makes of the report. -/
theorem changeState_book {r : Nat} {u : RideUnit} {s : State} (new : RideState) (hu : s.units.find r = some u) :
    ∃ y : State, y.book = s.book ∧ y.time = s.time ∧ y.units = s.units.update r (RideUnit.enter new s.clockNow) ∧
      (changeState r new s).book = (reportToBook (stateReport r u new s) y).book := by
  obtain ⟨x, before, after, hx, hbefore, hafter, heq⟩ := changeState_split new hu .book
  set rep := stateReport r u new s
  have hfold : ∀ hs : List Hearer, Hearer.book ∉ hs → ∀ y, (hs.foldl (hear rep) y).book = y.book := fun hs hn =>
    foldl_keeps_of_mem (fun s : State => s.book) _ _ fun h hh s => hear_book rep s fun he => hn (he ▸ hh)
  obtain ⟨hunits, htime⟩ := hears_units_time rep before x
  refine ⟨before.foldl (hear rep) x, (hfold before hbefore x).trans hx.book, htime.trans hx.time, hunits.trans hx.units, ?_⟩
  rw [heq, hfold after hafter]
  rfl

theorem changeState_heard (r : Nat) (new : RideState) (s : State) : BookHeard r s (changeState r new s) := by
  unfold changeState
  split
  · exact .refl r s
  next u hu =>
    dsimp only
    refine BookHeard.trans (bookHeard_of_rides (by simp) (passesKept_of_eq (by simp)))
      (hears_heard { ride := r, prev := u.state, new, since := s.clockNow } _ _)

theorem changeState_othersUnits (r : Nat) (new : RideState) (s : State) :
    OthersKept r s.units (changeState r new s).units := fun j hj => by simp [Ne.symm hj]

theorem changeState_othersEsts (r : Nat) (new : RideState) (s : State) :
    OthersKept r s.ests (changeState r new s).ests := by
  intro j hj
  cases hu : s.units.find r with
  | none => simp [changeState, hu]
  | some u => rw [changeState_ests_find new hu, if_neg (Ne.symm hj)]

theorem portKept_changeState (r : Nat) (new : RideState) (s : State) : PortKept s (changeState r new s) := by
  constructor <;> simp

/-! ### What one ride's affairs may touch -/

/-- The change is one of ride `r`: other rides' records stand, and so do the day, the poller, the passes and the port. -/
structure RideOnly (r : Nat) (s t : State) : Prop where
  units : OthersKept r s.units t.units
  ests : OthersKept r s.ests t.ests
  book : BookHeard r s t
  time : t.time = s.time
  poller : t.poller = s.poller
  port : PortKept s t

theorem RideOnly.refl (r : Nat) (s : State) : RideOnly r s s :=
  ⟨othersKept_refl _ _, othersKept_refl _ _, .refl r s, rfl, rfl, portKept_of_eq rfl⟩

theorem RideOnly.trans {r : Nat} {s t u : State} (h : RideOnly r s t) (g : RideOnly r t u) : RideOnly r s u :=
  ⟨othersKept_trans h.units g.units, othersKept_trans h.ests g.ests, h.book.trans g.book, g.time.trans h.time,
    g.poller.trans h.poller, portKept_trans h.port g.port⟩

theorem rideOnly_changeState (r : Nat) (new : RideState) (s : State) : RideOnly r s (changeState r new s) :=
  ⟨changeState_othersUnits r new s, changeState_othersEsts r new s, changeState_heard r new s, by simp, by simp,
    portKept_changeState r new s⟩

theorem rideOnly_closeCheck (r : Nat) (s : State) : RideOnly r s (closeCheck r s) := by
  unfold closeCheck
  split
  · exact rideOnly_changeState r _ s
  · exact .refl r s

theorem rideOnly_enterState (r : Nat) (new : RideState) (s : State) : RideOnly r s (enterState r new s) := by
  unfold enterState
  dsimp only
  split
  · exact (rideOnly_changeState r new s).trans (rideOnly_closeCheck r _)
  · exact rideOnly_changeState r new s

theorem rideOnly_modUnit (r : Nat) (f : RideUnit → RideUnit) (s : State) : RideOnly r s (s.modUnit r f) :=
  ⟨fun j hj => by simp [Ne.symm hj], othersKept_refl _ _, bookHeard_of_rides rfl (passesKept_of_eq rfl), rfl, rfl,
    portKept_of_eq rfl⟩

theorem rideOnly_modEst (r : Nat) (f : Estimator → Estimator) (s : State) : RideOnly r s (s.modEst r f) :=
  ⟨othersKept_refl _ _, fun j hj => by simp [Ne.symm hj], bookHeard_of_rides rfl (passesKept_of_eq rfl), rfl, rfl,
    portKept_of_eq rfl⟩

theorem rideOnly_reportLevel (r : Nat) (cls : NoteClass) (src : Nat) (level : Bool) (detail : Nat) (s : State) :
    RideOnly r s (reportLevel cls src level detail s) :=
  ⟨othersKept_of_eq _ (by simp), othersKept_of_eq _ (by simp), bookHeard_of_rides (by simp) (passesKept_of_eq (by simp)),
    by simp, by simp, by constructor <;> simp⟩

/-! ### The close check (R26) -/

/-- A ride closes once it is CLOSING, its queue is empty and its windows are resolved. -/
theorem closeCheck_units {r : Nat} {u : RideUnit} {e : Estimator} {s : State} (hu : s.units.find r = some u)
    (he : s.ests.find r = some e) : (closeCheck r s).units.find r = some
      (if u.state = .closing ∧ e.q = 0 ∧ s.allResolved r = true then { u with state := .closed, since := s.clockNow }
      else u) := by
  have hholds : s.closeHolds r = true ↔ u.state = .closing ∧ e.q = 0 ∧ s.allResolved r = true := by
    simp [State.closeHolds, hu, he, and_assoc]
  unfold closeCheck
  by_cases h : s.closeHolds r = true
  · rw [if_pos h, if_pos (hholds.mp h)]
    simp [hu, RideUnit.enter, RideState.isTesting]
  · rw [if_neg h, if_neg fun hc => h (hholds.mpr hc), hu]

/-- A state that is entered is CLOSED instead of CLOSING where the close check holds. -/
def RideUnit.entered (new : RideState) (since : Option Nat) (closes : Bool) (u : RideUnit) : RideUnit :=
  if new = .closing ∧ closes = true then { u.enter .closing since with state := .closed } else u.enter new since

theorem enterState_units {r : Nat} {u : RideUnit} {e : Estimator} {s : State} (new : RideState)
    (hu : s.units.find r = some u) (he : s.ests.find r = some e) : (enterState r new s).units.find r =
      some (u.entered new s.clockNow (decide (e.q = 0) && s.allResolved r)) := by
  have hunits : (changeState r new s).units.find r = some (u.enter new s.clockNow) := by simp [hu]
  unfold enterState RideUnit.entered
  dsimp only
  by_cases hnew : new = .closing
  · subst hnew
    have hests : (changeState r .closing s).ests.find r =
        some (e.heard s.time.params (some { u with state := .closing }) .closing) := by
      rw [changeState_ests_find .closing hu, if_pos rfl, he]
      rfl
    have hq : (e.heard s.time.params (some { u with state := .closing }) .closing).q = e.q := by
      unfold Estimator.heard
      simp only [RideState.inService, if_true]
      split <;> rfl
    have hclock : (changeState r .closing s).clockNow = s.clockNow := by simp [State.clockNow]
    rw [if_pos rfl, closeCheck_units hunits hests, hq, (changeState_heard r .closing s).allResolved, hclock]
    by_cases hc : e.q = 0 ∧ s.allResolved r = true
    · rw [if_pos ⟨rfl, hc⟩, if_pos ⟨rfl, by simp [hc]⟩]
      rfl
    · rw [if_neg fun h => hc h.2, if_neg fun h => hc (by simpa using h.2)]
  · rw [if_neg hnew, if_neg fun h => hnew h.1, hunits]

/-- The stall notice follows the state, through a close check too. -/
theorem enterState_image {r : Nat} {u : RideUnit} {s : State} (new : RideState) (hu : s.units.find r = some u)
    (id : SlotId) (hs : id.cls ≠ .slots) (hf : id.cls ≠ .flex) : ((enterState r new s).slot id).image =
      if id = ⟨.stall, r⟩ ∧ new.stalled ≠ u.state.stalled then new.stalled else (s.slot id).image := by
  rw [← changeState_image new hu id hs hf]
  unfold enterState
  dsimp only
  split
  next hnew =>
    unfold closeCheck
    split
    · have hunits : (changeState r new s).units.find r = some (u.enter new s.clockNow) := by simp [hu]
      rw [changeState_image .closed hunits id hs hf, if_neg]
      rintro ⟨-, h⟩
      subst hnew
      exact h rfl
    · rfl
  next => rfl

end Sys2Proof.Machine
end

section
/-! The thresholds, the tests, the opening and the park close of a ride: O17, O46, O47. -/

namespace Sys2Proof.Machine

open Sys2Proof.Safety

/-! ### The record of a ride that has entered a state -/

theorem entered_closing (since : Option Nat) (closes : Bool) (u : RideUnit) : u.entered .closing since closes =
    { u with state := if closes then .closed else .closing, since := since } := by
  cases closes <;> simp [RideUnit.entered, RideUnit.enter, RideState.isTesting]

theorem entered_testing (c : TestCause) (since : Option Nat) (closes : Bool) (u : RideUnit) :
    u.entered (.testing c) since closes =
      { u with state := .testing c, since := since, testDispatches := 0, testMinutes := 0 } := by
  simp [RideUnit.entered, RideUnit.enter, RideState.isTesting]

theorem entered_held (c : HeldCause) (since : Option Nat) (closes : Bool) (u : RideUnit) :
    u.entered (.held c) since closes = { u with state := .held c, since := since } := by
  simp [RideUnit.entered, RideUnit.enter, RideState.isTesting]

theorem entered_down (c : DownCause) (since : Option Nat) (closes : Bool) (u : RideUnit) :
    u.entered (.down c) since closes = { u with state := .down c, since := since } := by
  simp [RideUnit.entered, RideUnit.enter, RideState.isTesting]

theorem entered_closed (since : Option Nat) (closes : Bool) (u : RideUnit) :
    u.entered .closed since closes = { u with state := .closed, since := since } := by
  simp [RideUnit.entered, RideUnit.enter, RideState.isTesting]

theorem entered_opened (since : Option Nat) (closes : Bool) (u : RideUnit) :
    u.entered .opened since closes = { u with state := .opened, since := since, stall := 0 } := by
  simp [RideUnit.entered, RideUnit.enter, RideState.isTesting]

theorem entered_stalled (new : RideState) (since : Option Nat) (closes : Bool) (u : RideUnit) :
    (u.entered new since closes).state.stalled = new.stalled := by
  unfold RideUnit.entered
  split
  next h =>
    rw [h.1]
    rfl
  next => rfl

theorem entered_codeLevel (new : RideState) (since : Option Nat) (closes : Bool) (u : RideUnit) :
    (u.entered new since closes).codeLevel = u.codeLevel := by
  unfold RideUnit.entered
  split <;> rfl

/-! ### What the Ride State Unit does to one ride, with the two level notices that follow it -/

/-- The record of ride `r` goes from `u` to `v`, and the images of CODE and STALL follow it where it changes. -/
structure UnitMoved (r : Nat) (u v : RideUnit) (s t : State) : Prop where
  only : RideOnly r s t
  unit : t.units.find r = some v
  est : ∃ e, t.ests.find r = some e
  code : (t.slot ⟨.code, r⟩).image = if v.codeLevel ≠ u.codeLevel then v.codeLevel else (s.slot ⟨.code, r⟩).image
  stall : (t.slot ⟨.stall, r⟩).image =
    if v.state.stalled ≠ u.state.stalled then v.state.stalled else (s.slot ⟨.stall, r⟩).image

/-- A level that moves once in two steps moves as in one. -/
theorem image_trans {x y z old mid new : Bool} (h1 : mid = if y ≠ x then y else old) (h2 : new = if z ≠ y then z else mid)
    (h : y = x ∨ z = y) : new = if z ≠ x then z else old := by
  rw [h2, h1]
  rcases h with rfl | rfl <;> simp

section
variable {r : Nat} {u v w : RideUnit} {s t x : State}

theorem UnitMoved.trans (h : UnitMoved r u v s t) (g : UnitMoved r v w t x)
    (hc : v.codeLevel = u.codeLevel ∨ w.codeLevel = v.codeLevel)
    (hs : v.state.stalled = u.state.stalled ∨ w.state.stalled = v.state.stalled) : UnitMoved r u w s x :=
  ⟨h.only.trans g.only, g.unit, g.est, image_trans h.code g.code hc, image_trans h.stall g.stall hs⟩

theorem UnitMoved.refl {e : Estimator} (hu : s.units.find r = some u) (he : s.ests.find r = some e) :
    UnitMoved r u u s s := ⟨.refl r s, hu, ⟨e, he⟩, by simp, by simp⟩

theorem UnitMoved.clockNow (h : UnitMoved r u v s t) : t.clockNow = s.clockNow := by
  rw [State.clockNow, State.clockNow, h.only.time]

/-- A write of timers and counts moves no level. -/
theorem unitMoved_modUnit {e : Estimator} (f : RideUnit → RideUnit) (hu : s.units.find r = some u)
    (he : s.ests.find r = some e) (hc : (f u).codeLevel = u.codeLevel) (hs : (f u).state = u.state) :
    UnitMoved r u (f u) s (s.modUnit r f) :=
  ⟨rideOnly_modUnit r f s, by simp [hu], ⟨e, he⟩, by rw [if_neg (not_not_intro hc)]; rfl,
    by rw [if_neg (not_not_intro (congrArg RideState.stalled hs))]; rfl⟩

theorem changeState_est {e : Estimator} (new : RideState) (hu : s.units.find r = some u) (he : s.ests.find r = some e) :
    ∃ e', (changeState r new s).ests.find r = some e' :=
  ⟨_, by rw [changeState_ests_find new hu, if_pos rfl, he]; rfl⟩

theorem closeCheck_est {e : Estimator} (hu : s.units.find r = some u) (he : s.ests.find r = some e) :
    ∃ e', (closeCheck r s).ests.find r = some e' := by
  unfold closeCheck
  split
  · exact changeState_est .closed hu he
  · exact ⟨e, he⟩

theorem unitMoved_enterState {e : Estimator} (new : RideState) (hu : s.units.find r = some u)
    (he : s.ests.find r = some e) :
    UnitMoved r u (u.entered new s.clockNow (decide (e.q = 0) && s.allResolved r)) s (enterState r new s) := by
  refine ⟨rideOnly_enterState r new s, enterState_units new hu he, ?_, ?_, ?_⟩
  · obtain ⟨e', he'⟩ := changeState_est new hu he
    have hunits : (changeState r new s).units.find r = some (u.enter new s.clockNow) := by simp [hu]
    unfold enterState
    dsimp only
    split
    · exact closeCheck_est hunits he'
    · exact ⟨e', he'⟩
  · rw [entered_codeLevel, if_neg (not_not_intro rfl), enterState_image new hu _ (show NoteClass.code ≠ .slots by decide)
      (show NoteClass.code ≠ .flex by decide), if_neg]
    exact fun h => absurd (congrArg (·.cls) h.1) (show NoteClass.code ≠ NoteClass.stall by decide)
  · rw [entered_stalled, enterState_image new hu _ (show NoteClass.stall ≠ .slots by decide)
      (show NoteClass.stall ≠ .flex by decide)]
    simp

theorem unitMoved_codeLevel {e : Estimator} (level : Bool) (detail : Nat) (f : RideUnit → RideUnit)
    (hu : s.units.find r = some u) (he : s.ests.find r = some e) (hl : u.codeLevel ≠ level)
    (hf : (f u).codeLevel = level) (hs : (f u).state = u.state) :
    UnitMoved r u (f u) s (reportLevel .code r level detail (s.modUnit r f)) := by
  refine ⟨(rideOnly_modUnit r f s).trans (rideOnly_reportLevel r _ _ _ _ _), by simp [hu], ⟨e, by simp [he]⟩, ?_, ?_⟩
  · rw [reportLevel_image, if_pos rfl, hf, if_pos (Ne.symm hl)]
  · rw [reportLevel_image, if_neg (by simp), if_neg (not_not_intro (congrArg RideState.stalled hs))]
    rfl

end

/-! ### The fault, the clear and the stall timers at their thresholds (R31, R34 to R36) -/

/-- The ride record after the check of the fault timer. -/
def RideUnit.codeRisen (now : Option Nat) (u : RideUnit) : RideUnit :=
  if u.codeLevel = false ∧ u.config.codePersist ≤ u.fault then
    if u.config.auto = true ∧ u.state ≠ .closed ∧ u.state.isDown = false then
      { u with codeLevel := true, state := .down .code, since := now }
    else { u with codeLevel := true }
  else u

/-- The ride record after the check of the clear timer. -/
def RideUnit.codeFallen (now : Option Nat) (u : RideUnit) : RideUnit :=
  if u.codeLevel = true ∧ u.config.clearPersist ≤ u.clear then
    if u.config.auto = true ∧ u.state.isDown = true then
      { u with
        codeLevel := false, clear := 0, state := .testing .fromDown, since := now
        testDispatches := 0, testMinutes := 0 }
    else { u with codeLevel := false, clear := 0 }
  else u

/-- The ride record after the check of the stall timer. -/
def RideUnit.stallChecked (now : Option Nat) (u : RideUnit) : RideUnit :=
  if u.state = .opened ∧ u.config.stallTime ≤ u.stall then { u with state := .held .stall, since := now } else u

/-- The states that a code takes DOWN are those that are neither CLOSED nor DOWN (R35). -/
theorem inService_or_isTesting_iff (st : RideState) :
    (st.inService = true ∨ st.isTesting = true) ↔ st ≠ .closed ∧ st.isDown = false := by
  cases st <;> simp [RideState.inService, RideState.isTesting, RideState.isDown]

section
variable {r : Nat} {u : RideUnit} {e : Estimator} {s : State}

theorem codeRiseCheck_moved (hu : s.units.find r = some u) (he : s.ests.find r = some e) :
    UnitMoved r u (u.codeRisen s.clockNow) s (codeRiseCheck r s) := by
  simp only [codeRiseCheck, hu, RideUnit.codeRisen]
  split
  next h =>
    have hlevel := unitMoved_codeLevel true ((s.lastCode r).getD 0) (fun u => { u with codeLevel := true }) hu he
      (by simp [h.1]) rfl rfl
    obtain ⟨e', he'⟩ := hlevel.est
    by_cases hauto : u.config.auto = true ∧ u.state ≠ .closed ∧ u.state.isDown = false
    · rw [if_pos hauto, if_pos ⟨hauto.1, (inService_or_isTesting_iff _).mpr hauto.2⟩]
      have henter := unitMoved_enterState (.down .code) hlevel.unit he'
      rw [entered_down, hlevel.clockNow] at henter
      exact hlevel.trans henter (.inr rfl) (.inl rfl)
    · rw [if_neg hauto, if_neg fun hc => hauto ⟨hc.1, (inService_or_isTesting_iff _).mp hc.2⟩]
      exact hlevel
  next => exact .refl hu he

theorem codeFallCheck_moved (hu : s.units.find r = some u) (he : s.ests.find r = some e) :
    UnitMoved r u (u.codeFallen s.clockNow) s (codeFallCheck r s) := by
  simp only [codeFallCheck, hu, RideUnit.codeFallen]
  split
  next h =>
    have hlevel := unitMoved_codeLevel false ((s.lastCode r).getD 0) (fun u => { u with codeLevel := false, clear := 0 })
      hu he (by simp [h.1]) rfl rfl
    obtain ⟨e', he'⟩ := hlevel.est
    split
    next hauto =>
      have henter := unitMoved_enterState (.testing .fromDown) hlevel.unit he'
      rw [entered_testing, hlevel.clockNow] at henter
      exact hlevel.trans henter (.inr rfl) (.inl rfl)
    next => exact hlevel
  next => exact .refl hu he

theorem stallCheck_moved (hu : s.units.find r = some u) (he : s.ests.find r = some e) :
    UnitMoved r u (u.stallChecked s.clockNow) s (stallCheck r s) := by
  simp only [stallCheck, hu, RideUnit.stallChecked]
  split
  next h =>
    have henter := unitMoved_enterState (.held .stall) hu he
    rw [entered_held] at henter
    exact henter
  next => exact .refl hu he

/-! ### The second of a ride (R30, R34, R36) -/

theorem codeRisen_state (now : Option Nat) (u : RideUnit) :
    (u.codeRisen now).state = u.state ∨ (u.codeRisen now).state = .down .code := by
  unfold RideUnit.codeRisen
  split
  · split
    · exact .inr rfl
    · exact .inl rfl
  · exact .inl rfl

theorem codeFallen_state (now : Option Nat) (u : RideUnit) :
    (u.codeFallen now).state = u.state ∨ (u.codeFallen now).state = .testing .fromDown := by
  unfold RideUnit.codeFallen
  split
  · split
    · exact .inr rfl
    · exact .inl rfl
  · exact .inl rfl

theorem secondOfCode_eq (now : Option Nat) (c : Nat) (u : RideUnit) : secondOfCode now (some c) u =
    if 128 ≤ c then
      RideUnit.codeRisen now { u with fault := if u.fault < u.config.codePersist then u.fault + 1 else u.fault }
    else if u.codeLevel then RideUnit.codeFallen now { u with clear := u.clear + 1 } else u := by
  unfold secondOfCode RideUnit.codeRisen RideUnit.codeFallen
  dsimp only
  split
  · rfl
  · split
    next h => simp [h]
    next => rfl

/-- The code of a second changes the state to one that no stall timer counts in, or not at all. -/
theorem secondOfCode_state (now code : Option Nat) (u : RideUnit) :
    (secondOfCode now code u).state = u.state ∨ (secondOfCode now code u).state ≠ .opened := by
  cases code with
  | none => exact .inl rfl
  | some c =>
    rw [secondOfCode_eq]
    split
    · rcases codeRisen_state now { u with fault := if u.fault < u.config.codePersist then u.fault + 1 else u.fault } with
        h | h
      · exact .inl h
      · exact .inr (by rw [h]; decide)
    · split
      · rcases codeFallen_state now { u with clear := u.clear + 1 } with h | h
        · exact .inl h
        · exact .inr (by rw [h]; decide)
      · exact .inl rfl

theorem persistSecond_moved (hu : s.units.find r = some u) (he : s.ests.find r = some e) :
    UnitMoved r u (secondOfCode s.clockNow (s.lastCode r) u) s (persistSecond r s) := by
  unfold persistSecond
  rw [hu]
  cases hcode : s.lastCode r with
  | none => exact .refl hu he
  | some c =>
    simp only [secondOfCode_eq, faultCode, decide_eq_true_eq]
    split
    · have hfault := unitMoved_modUnit
        (fun u => { u with fault := if u.fault < u.config.codePersist then u.fault + 1 else u.fault }) hu he rfl rfl
      obtain ⟨e', he'⟩ := hfault.est
      exact hfault.trans (codeRiseCheck_moved hfault.unit he') (.inl rfl) (.inl rfl)
    · split
      · have hclear := unitMoved_modUnit (fun u => { u with clear := u.clear + 1 }) hu he rfl rfl
        obtain ⟨e', he'⟩ := hclear.est
        exact hclear.trans (codeFallCheck_moved hclear.unit he') (.inl rfl) (.inl rfl)
      · exact .refl hu he

theorem secondOfStall_eq (now : Option Nat) (u : RideUnit) : secondOfStall now u =
    if u.state = .opened then RideUnit.stallChecked now { u with stall := min 900 (u.stall + 1) } else u := by
  unfold secondOfStall RideUnit.stallChecked
  dsimp only
  split
  next h => simp [h]
  next => rfl

theorem stallSecond_moved (hu : s.units.find r = some u) (he : s.ests.find r = some e) :
    UnitMoved r u (secondOfStall s.clockNow u) s (stallSecond r s) := by
  simp only [stallSecond, hu, secondOfStall_eq, saturate_eq_min]
  split
  · have hstall := unitMoved_modUnit (fun u => { u with stall := min 900 (u.stall + 1) }) hu he rfl rfl
    obtain ⟨e', he'⟩ := hstall.est
    exact hstall.trans (stallCheck_moved hstall.unit he') (.inl rfl) (.inl rfl)
  · exact .refl hu he

theorem secondOfStall_codeLevel (now : Option Nat) (u : RideUnit) : (secondOfStall now u).codeLevel = u.codeLevel := by
  rw [secondOfStall_eq, RideUnit.stallChecked]
  split
  · split <;> rfl
  · rfl

/-- A second of a ride whose link is UP. -/
theorem unitSecond_moved (hu : s.units.find r = some u) (he : s.ests.find r = some e) (hlink : s.linkUp r = true) :
    UnitMoved r u (secondOfStall s.clockNow (secondOfCode s.clockNow (s.lastCode r) u)) s (unitSecond r s) := by
  have hcode := persistSecond_moved hu he
  obtain ⟨e', he'⟩ := hcode.est
  have hstall := stallSecond_moved hcode.unit he'
  rw [hcode.clockNow] at hstall
  rw [unitSecond, if_pos hlink]
  refine hcode.trans hstall (.inr (secondOfStall_codeLevel _ _)) ?_
  rcases secondOfCode_state s.clockNow (s.lastCode r) u with h | h
  · exact .inl (congrArg RideState.stalled h)
  · rw [secondOfStall_eq, if_neg h]
    exact .inr rfl

end

theorem stalled_iff (st : RideState) : st.stalled = true ↔ st = .held .stall := by
  cases st with
  | held c => cases c <;> simp [RideState.stalled]
  | _ => simp [RideState.stalled]

/-- Settles O46: at its threshold a timer stalls, raises, clears or takes the ride down, and a second counts all of them. -/
theorem rideThresholds : Obligations.RideThresholds := by
  intro r s u e hu he
  refine ⟨fun hst hstall => ?_, fun c hst hauto hheld => ?_, fun hlevel hfault => ?_, fun hlevel hclear => ?_,
    fun d f hf => ⟨fun hlink => ?_, fun hlink v w t hv hw ht => ?_⟩⟩
  · have h := stallCheck_moved hu he
    rw [RideUnit.stallChecked, if_pos ⟨hst, hstall⟩] at h
    exact ⟨_, rfl, h.unit, by rw [h.stall, hst]; rfl, h.only.units, h.only.time, h.only.poller, h.only.book.passes,
      h.only.port⟩
  · have h := unitMoved_enterState (.down .heldTooLong) hu he
    rw [entered_down] at h
    have htake : takeHeldMinute r s = enterState r (.down .heldTooLong) s := by
      simp only [takeHeldMinute, hu, he]
      exact if_pos ⟨(isHeld_iff _).mpr ⟨c, hst⟩, hauto, hheld⟩
    refine ⟨_, exec_next rfl htake, h.unit, fun hc => ?_, h.only.units, h.only.time, h.only.poller, h.only.book.passes,
      h.only.port⟩
    rw [h.stall, hst, hc]
    rfl
  · have h := codeRiseCheck_moved hu he
    rw [RideUnit.codeRisen, if_pos ⟨hlevel, hfault⟩] at h
    refine ⟨_, rfl, h.unit, ?_, h.only.units, h.only.time, h.only.poller, h.only.book.passes, h.only.port⟩
    rw [h.code, hlevel]
    split <;> rfl
  · have h := codeFallCheck_moved hu he
    rw [RideUnit.codeFallen, if_pos ⟨hlevel, hclear⟩] at h
    refine ⟨_, rfl, h.unit, ?_, h.only.units, h.only.time, h.only.poller, h.only.book.passes, h.only.port⟩
    rw [h.code, hlevel]
    split <;> rfl
  · have hup : s.linkUp r = false := by simp [State.linkUp, hf, hlink]
    simp [take, unitSecond, hup]
  · have hup : s.linkUp r = true := by simp [State.linkUp, hf, hlink]
    have hlast : s.lastCode r = f.lastCode := by simp [State.lastCode, hf]
    have h := unitSecond_moved hu he hup
    rw [hlast, ← hv, ← hw] at h
    have hcode : w.codeLevel = v.codeLevel := by rw [hw, secondOfStall_codeLevel]
    have ht : t = unitSecond r s := ht
    rw [ht]
    refine ⟨h.unit, fun hne => ?_, fun heq => ?_, fun hiff => ?_, fun hheld hnot => ?_, fun hnot hheld => ?_, h.only.units,
      h.only.ests, h.only.time, h.only.poller, h.only.book.passes, h.only.port⟩
    · rw [h.code, hcode, if_pos hne]
    · rw [h.code, hcode, if_neg (not_not_intro heq)]
    · rw [← stalled_iff, ← stalled_iff, ← Bool.eq_iff_iff] at hiff
      rw [h.stall, if_neg (not_not_intro hiff)]
    · have hheld := (stalled_iff _).mpr hheld
      have hnot : u.state.stalled ≠ true := mt (stalled_iff _).mp hnot
      rw [h.stall, hheld, if_pos (Ne.symm hnot)]
    · have hheld := (stalled_iff _).mpr hheld
      have hnot : w.state.stalled ≠ true := mt (stalled_iff _).mp hnot
      rw [h.stall, hheld, if_pos hnot]
      simpa using hnot

/-! ### Tests (R28, R29) -/

section
variable {r : Nat} {u : RideUnit} {e : Estimator} {s : State}

/-- The ride record after the completion check of its test. -/
def RideUnit.testChecked (closePassed closes : Bool) (now : Option Nat) (u : RideUnit) : RideUnit :=
  if u.testDone then afterTest closePassed closes now u else u

theorem testDone_iff (u : RideUnit) : u.testDone = true ↔ u.state.isTesting = true ∧
    u.config.testDispatches ≤ u.testDispatches ∧ u.config.testMinutes ≤ u.testMinutes := by
  simp [RideUnit.testDone, and_assoc]

theorem testCheck_moved (hu : s.units.find r = some u) (he : s.ests.find r = some e) :
    UnitMoved r u (u.testChecked s.time.closePassed (decide (e.q = 0) && s.allResolved r) s.clockNow) s (testCheck r s) := by
  simp only [testCheck, hu, RideUnit.testChecked]
  split
  next h =>
    cases hclose : s.time.closePassed with
    | true =>
      have henter := unitMoved_enterState .closing hu he
      rw [entered_closing] at henter
      exact henter
    | false =>
      have henter := unitMoved_enterState .opened hu he
      rw [entered_opened] at henter
      exact henter
  next => exact .refl hu he

/-- A report that dispatches nothing new, of a ride that is not stalled, is followed by the check of the test. -/
theorem unitReport_moved {code : Nat} {n : Option Nat} (hu : s.units.find r = some u) (he : s.ests.find r = some e)
    (hs : 0 < n.getD 0 → u.state.stalled = false) : UnitMoved r u
      ((u.takeReport code n).testChecked s.time.closePassed (decide (e.q = 0) && s.allResolved r) s.clockNow) s
      (unitReport r code n s) := by
  have hkept : (u.takeReport code n).codeLevel = u.codeLevel ∧ (u.takeReport code n).state = u.state := by
    cases n <;> simp only [RideUnit.takeReport, RideUnit.takeCode, RideUnit.takeDispatches] <;> split <;> exact ⟨rfl, rfl⟩
  have hreport := unitMoved_modUnit (RideUnit.takeReport code n) hu he hkept.1 hkept.2
  have hcheck := testCheck_moved hreport.unit (e := e) he
  have hrun : unitReport r code n s = testCheck r (s.modUnit r (RideUnit.takeReport code n)) := by
    simp only [unitReport, hreport.unit, hkept.2]
    exact if_neg fun h => by simp [hs h.1] at h
  rw [hrun]
  exact hreport.trans hcheck (.inl hkept.1) (.inl (congrArg RideState.stalled hkept.2))

end

theorem takeCode_testDone (code : Nat) (u : RideUnit) : (u.takeCode code).testDone = u.testDone := by
  unfold RideUnit.takeCode
  split <;> rfl

theorem isTesting_stalled {st : RideState} (h : st.isTesting = true) : st.stalled = false := by
  obtain ⟨c, rfl⟩ := (isTesting_iff st).mp h
  rfl

/-- A ride in its test whose thresholds are met leaves it (R29). -/
theorem afterTest_eq (closePassed closes : Bool) (now : Option Nat) (u : RideUnit) :
    afterTest closePassed closes now u =
      if closePassed = false then { u with state := .opened, since := now, stall := 0 }
      else { u with state := if closes then .closed else .closing, since := now } := by
  cases closePassed <;> rfl

/-- Settles O47: a test is complete once both thresholds are met, and is checked when something has been counted. -/
theorem testCompletes : Obligations.TestCompletes := by
  refine ⟨fun r s u e c hu he hst hd hm => ⟨fun hcounted => ?_, fun hd0 hm0 => exec_next rfl ?_, fun code => ?_⟩,
    fun r s u e hu he => ⟨fun d hst => ?_, fun d v hst hv => ?_, fun code n v hst hv => ?_⟩⟩
  · have hdone : u.testDone = true := (testDone_iff u).mpr ⟨(isTesting_iff _).mpr ⟨c, hst⟩, hd, hm⟩
    have h := testCheck_moved hu he
    rw [RideUnit.testChecked, if_pos hdone, afterTest_eq] at h
    have hexec : (if (s.units.find r).any RideUnit.testCounted then testCheck r s else s) = testCheck r s := by
      rw [hu, if_pos]
      simpa [RideUnit.testCounted] using hcounted
    refine ⟨_, exec_next rfl hexec, ?_, h.only.units, h.only.time, h.only.poller, h.only.book.passes, h.only.port⟩
    simpa using h.unit
  · rw [hu, if_neg]
    simp [RideUnit.testCounted, hd0, hm0]
  · have hdone : (u.takeCode code).testDone = true := by
      rw [takeCode_testDone]
      exact (testDone_iff u).mpr ⟨(isTesting_iff _).mpr ⟨c, hst⟩, hd, hm⟩
    have h := (unitReport_moved (code := code) (n := none) hu he (by simp)).unit
    rw [RideUnit.takeReport, RideUnit.testChecked, if_pos hdone, afterTest_eq] at h
    simpa using h
  · simp [take, testMinute, hu, hst]
  · have hminute := unitMoved_modUnit (fun u => { u with testMinutes := min 255 (u.testMinutes + 1) }) hu he rfl rfl
    have h := hminute.trans (testCheck_moved hminute.unit he) (.inl rfl) (.inl rfl)
    have htake : testCheck r (s.modUnit r fun u => { u with testMinutes := min 255 (u.testMinutes + 1) }) =
        take d s (.testMinute r) := by
      simp only [take, testMinute, hu, hst, if_true, saturate_eq_min]
    refine ⟨_, htake, ?_, h.only.units, h.only.ests, h.only.time, h.only.poller, h.only.book.passes, h.only.port⟩
    rw [h.unit, ← hv, RideUnit.testChecked]
    simp only [testDone_iff, hv, hst, true_and]
    rfl
  · have hreport : u.takeReport code n = v := by
      rw [hv]
      cases n with
      | none => by_cases hcode : 128 ≤ code <;> simp [RideUnit.takeReport, RideUnit.takeCode, faultCode, hcode]
      | some x =>
        by_cases hcode : 128 ≤ code <;>
          simp [RideUnit.takeReport, RideUnit.takeCode, RideUnit.takeDispatches, faultCode, saturate_eq_min, hst, hcode]
    have h := (unitReport_moved (code := code) (n := n) hu he fun _ => isTesting_stalled hst).unit
    rw [h, hreport, RideUnit.testChecked]
    simp only [testDone_iff, hv, hst, true_and]

/-! ### Opening and park close (R24, R25) -/

/-- Settles O17: an opening takes a CLOSED ride to its test, and the park close takes an OPEN or HELD ride to CLOSING. -/
theorem openingAndParkClose : Obligations.OpeningAndParkClose := by
  intro d r s u e hu he
  refine ⟨fun hst => ?_, fun hst => ?_, fun hst => ?_, fun hst => ?_, rfl⟩
  · have h := unitMoved_enterState (.testing .fromClosed) hu he
    rw [entered_testing] at h
    have htake : enterState r (.testing .fromClosed) s = take d s (.opening r) := by
      simp [take, openingEvent, hu, hst]
    exact ⟨_, htake, h.unit, h.only.units, h.only.time, h.only.poller, h.only.book.passes, h.only.port⟩
  · simp [take, openingEvent, hu, hst]
  · have h := unitMoved_enterState .closing (s := setClosePassed s) hu he
    rw [entered_closing] at h
    have htake : enterState r .closing (setClosePassed s) = take d s (.parkClose r) := by
      have hheld : u.state = .opened ∨ u.state.isHeld = true := by rwa [isHeld_iff]
      have hu' : (setClosePassed s).units.find r = some u := hu
      simp only [take, parkCloseEvent, hu', if_pos hheld]
    have hclock : (setClosePassed s).clockNow = s.clockNow := rfl
    have hall : (setClosePassed s).allResolved r = s.allResolved r := rfl
    rw [hclock, hall] at h
    refine ⟨_, htake, ?_, fun hstall => ?_, h.only.units, h.only.time, h.only.poller,
      passesKept_trans (t := setClosePassed s) (passesKept_of_eq rfl) h.only.book.passes,
      portKept_trans (t := setClosePassed s) (portKept_of_eq rfl) h.only.port⟩
    · simpa using h.unit
    · have hclosed : ∀ closes : Bool, (if closes then RideState.closed else .closing).stalled = false := by decide
      rw [h.stall, hclosed, hstall]
      rfl
  · have hheld : ¬(u.state = .opened ∨ u.state.isHeld = true) := by rwa [isHeld_iff]
    have hu' : (setClosePassed s).units.find r = some u := hu
    simp only [take, parkCloseEvent, hu', if_neg hheld]
    rfl

end Sys2Proof.Machine
end

section
/-! SETRIDE and SETQUEUE: O21, O22. -/

namespace Sys2Proof.Machine

open Sys2Proof.Safety

/-! ### A request about one ride -/

/-- What a request leaves alone that does one ride's affairs and is answered. -/
theorem RideOnly.answered {r : Nat} {s t : State} (rcd : Record) (h : RideOnly r s.popInput t) :
    OthersKept r s.units (enterReply rcd t).units ∧ OthersKept r s.ests (enterReply rcd t).ests ∧
    OthersKept r s.book.rides (enterReply rcd t).book.rides ∧ (enterReply rcd t).time = s.time ∧
    (enterReply rcd t).poller = s.poller ∧ PassesKept s (enterReply rcd t) ∧
    PortKept s.popInput (enterReply rcd t) := by
  have hpasses := passesKept_trans (passesKept_of_eq (s := s) (State.popInput_book s)) h.book.passes
  refine ⟨?_, ?_, ?_, ?_, ?_, passesKept_trans hpasses (passesKept_of_eq (by simp)), portKept_enterReply rcd h.port⟩
  · rw [(enterReply_keeps rcd t).2.1]
    exact h.units
  · rw [(enterReply_keeps rcd t).2.2.2.1]
    exact h.ests
  · rw [(enterReply_keeps rcd t).2.2.2.2.1]
    exact h.book.others
  · rw [(enterReply_keeps rcd t).1]
    exact h.time
  · rw [(enterReply_keeps rcd t).2.2.1]
    exact h.poller

/-! ### SETRIDE (R38 to R41) -/

theorem closeRide_units {r : Nat} {u : RideUnit} {e : Estimator} {s : State} (hu : s.units.find r = some u)
    (he : s.ests.find r = some e) : (closeRide r s).units.find r = some
      { u with state := .closed, since := s.clockNow, stall := 0, testDispatches := 0, testMinutes := 0 } := by
  have h := enterState_units .closed hu he
  rw [entered_closed] at h
  simp [closeRide, h]

theorem rideOnly_act (a : RideAction) (r : Nat) (st : RideState) (s : State) : RideOnly r s (a.act r st s) := by
  cases a with
  | down =>
    unfold RideAction.act
    dsimp only
    split
    · exact .refl r s
    · exact rideOnly_enterState r _ s
  | close => exact (rideOnly_enterState r .closed s).trans (rideOnly_modUnit r _ _)
  | openRide => exact rideOnly_enterState r (.testing .fromClosed) s
  | hold => exact rideOnly_enterState r (.held .operations) s
  | resume => exact rideOnly_enterState r .opened s
  | clear => exact rideOnly_enterState r (.testing .fromDown) s
  | lastentry => exact rideOnly_enterState r .closing s

theorem act_units (a : RideAction) {r : Nat} {u : RideUnit} {e : Estimator} {s : State}
    (hu : s.units.find r = some u) (he : s.ests.find r = some e) : (a.act r u.state s).units.find r =
      some (afterAction a s.clockNow (decide (e.q = 0) && s.allResolved r) u) := by
  have henter := fun new => enterState_units new hu he
  cases a with
  | openRide => exact (henter _).trans (by rw [entered_testing]; rfl)
  | hold => exact (henter _).trans (by rw [entered_held]; rfl)
  | resume => exact (henter _).trans (by rw [entered_opened]; rfl)
  | clear => exact (henter _).trans (by rw [entered_testing]; rfl)
  | lastentry => exact (henter _).trans (by rw [entered_closing]; rfl)
  | close => exact closeRide_units hu he
  | down =>
    unfold RideAction.act afterAction
    dsimp only
    split
    · exact hu
    · exact (henter _).trans (by rw [entered_down])

theorem ofNumber_actionCode (a : RideAction) : RideAction.ofNumber (actionCode a) = some a := by cases a <;> rfl

theorem exec_setrideCommand (a : RideAction) (tag r g o : Nat) (s : State) :
    exec (setrideCommand a tag r g o) s = .next (portStep tag (.setride r (actionCode a) g o) s) := by cases a <;> rfl

theorem serveSetride_takes {a : RideAction} {r g o : Nat} {s : State} {u : RideUnit} (hd : s.time.day = .day)
    (hg : g ≤ 10) (hguard : s.guardHolds g o r = true) (hu : s.units.find r = some u)
    (hp : a.permitted u.state = true) : serveSetride r (actionCode a) g o s =
      (a.act r u.state s, .setride .done r ((a.act r u.state s).shownState r)) := by
  simp [serveSetride, (dayRefusal_none_iff _).mpr hd, ofNumber_actionCode, guardReserved, Nat.not_lt.mpr hg, hu, hp, hguard]

/-- Settles O21: a SETRIDE that is permitted does its action to its ride, and answers with the state it has then. -/
theorem setrideTakes : Obligations.SetrideTakes := by
  intro a tag r g o s u e hoff hd hg hguard hu he hp
  have hserve : serve tag (.setride r (actionCode a) g o) s.popInput = (a.act r u.state s.popInput,
      some (.setride .done r ((a.act r u.state s.popInput).shownState r))) :=
    congrArg answered (serveSetride_takes (s := s.popInput) hd hg hguard hu hp)
  have hunits := act_units a (s := s.popInput) hu he
  have hshown : (a.act r u.state s.popInput).shownState r =
      some ((afterAction a s.clockNow (decide (e.q = 0) && s.allResolved r) u).state,
        (afterAction a s.clockNow (decide (e.q = 0) && s.allResolved r) u).since) := by
    rw [State.shownState, hunits]
    rfl
  rw [hshown] at hserve
  obtain ⟨hothers, -, -, htime, hpoller, hpasses, hport⟩ := (rideOnly_act a r u.state s.popInput).answered _
  refine ⟨_, _, exec_served (exec_setrideCommand a tag r g o s) hoff (.inl (day_ne_opening hd)) hserve, rfl, ?_, hothers,
    replied_of_moves _ hoff (moves_act a r u.state _ hd), htime, hpoller, hpasses, hport⟩
  rw [(enterReply_keeps _ _).2.1]
  exact hunits

/-! ### SETQUEUE (R61, R63, R64) -/

theorem rideOnly_reportZero (r : Nat) (s : State) : RideOnly r s (reportZero r s) := by
  unfold reportZero
  split
  · exact .refl r s
  · split
    · exact rideOnly_closeCheck r s
    · exact .refl r s

/-- What the end of a queue does to its ride: a CLOSING ride whose windows are resolved closes. -/
theorem reportZero_units {r : Nat} {u : RideUnit} {e : Estimator} {s : State} (hu : s.units.find r = some u)
    (he : s.ests.find r = some e) : (reportZero r s).units.find r = some
      (if u.state = .closing ∧ e.q = 0 ∧ s.allResolved r = true then { u with state := .closed, since := s.clockNow }
      else u) := by
  unfold reportZero
  rw [he]
  dsimp only
  split
  next => exact closeCheck_units hu he
  next h => rw [if_neg fun hc => h hc.2.1, hu]

/-- What is not counted, estimated or sampled anew when a ride closes. -/
structure EstimatorKept (e e' : Estimator) : Prop where
  s : e'.s = e.s
  sr : e'.sr = e.sr
  m : e'.m = e.m
  mr : e'.mr = e.mr
  stale : e'.stale = e.stale
  staleTimer : e'.staleTimer = e.staleTimer

theorem hears_kept (new : RideState) (e : Estimator) : EstimatorKept e (e.hears new) := by
  unfold Estimator.hears
  dsimp only
  constructor <;> split <;> split <;> split <;> rfl

theorem heard_kept (p : Params) (u : Option RideUnit) (new : RideState) (e : Estimator) :
    EstimatorKept e (e.heard p u new) := by
  have h := hears_kept new e
  unfold Estimator.heard
  split
  · split
    · exact h
    · split <;> exact { h with }
  · exact { h with }

theorem heard_closed (p : Params) (u : Option RideUnit) (e : Estimator) :
    e.heard p u .closed = { e with q := 0, eligible := false, wait := none } := by
  simp [Estimator.heard, Estimator.hears, RideState.inService, RideState.isHeld]

theorem closeCheck_ests {r : Nat} {u : RideUnit} {e : Estimator} {s : State} (hu : s.units.find r = some u)
    (he : s.ests.find r = some e) : (closeCheck r s).ests.find r = some
      (if u.state = .closing ∧ e.q = 0 ∧ s.allResolved r = true then { e with q := 0, eligible := false, wait := none }
      else e) := by
  have hholds : s.closeHolds r = true ↔ u.state = .closing ∧ e.q = 0 ∧ s.allResolved r = true := by
    simp [State.closeHolds, hu, he, and_assoc]
  unfold closeCheck
  by_cases h : s.closeHolds r = true
  · rw [if_pos h, if_pos (hholds.mp h), changeState_ests_find .closed hu, if_pos rfl, he, Option.map_some, heard_closed]
  · rw [if_neg h, if_neg fun hc => h (hholds.mpr hc), he]

theorem reportZero_ests {r : Nat} {u : RideUnit} {e : Estimator} {s : State} (hu : s.units.find r = some u)
    (he : s.ests.find r = some e) : (reportZero r s).ests.find r = some
      (if u.state = .closing ∧ e.q = 0 ∧ s.allResolved r = true then { e with q := 0, eligible := false, wait := none }
      else e) := by
  unfold reportZero
  rw [he]
  dsimp only
  split
  next => exact closeCheck_ests hu he
  next h => rw [if_neg fun hc => h hc.2.1, he]

theorem serveSetqueue_takes {r g o q : Nat} {s : State} {u : RideUnit} (hd : s.time.day = .day) (hg : g ≤ 10)
    (hu : s.units.find r = some u) (hst : u.state ≠ .closed) (hguard : s.guardHolds g o r = true) :
    serveSetqueue r g o q s = (takeSetqueue r (min q 9999) s,
      .setqueue (if 9999 < q then .clamped else .done) r ((takeSetqueue r (min q 9999) s).shownQueue r)) := by
  have hq : saturate Config.queueMax q = min q 9999 := (saturate_eq_min _ _).trans (Nat.min_comm _ _)
  have hdone : doneOr (decide (Config.queueMax < q)) = if 9999 < q then .clamped else .done :=
    if_congr decide_eq_true_iff rfl rfl
  simp [serveSetqueue, (dayRefusal_none_iff _).mpr hd, guardReserved, Nat.not_lt.mpr hg, hu, hst, hguard, hq, hdone]

/-- Settles O22: SETQUEUE gives a ride its queue, which closes a CLOSING ride that has none left. -/
theorem setqueueTakes : Obligations.SetqueueTakes := by
  intro tag r g o q s u e hoff hd hg hu he hst hguard
  have hserve : serve tag (.setqueue r g o q) s.popInput = (takeSetqueue r (min q 9999) s.popInput,
      some (.setqueue (if 9999 < q then .clamped else .done) r
        ((takeSetqueue r (min q 9999) s.popInput).shownQueue r))) :=
    congrArg answered (serveSetqueue_takes (s := s.popInput) hd hg hu hst hguard)
  let s1 := s.popInput.modEst r fun e => { e with q := min q 9999, renew := true }
  have he1 : s1.ests.find r = some { e with q := min q 9999, renew := true } := by simp [s1, he]
  have hunits := reportZero_units (s := s1) hu he1
  have hests := reportZero_ests (s := s1) hu he1
  have honly : RideOnly r s.popInput (takeSetqueue r (min q 9999) s.popInput) :=
    (rideOnly_modEst r _ _).trans (rideOnly_reportZero r s1)
  have hmoves : Moves s.popInput (takeSetqueue r (min q 9999) s.popInput) :=
    moves_takeSetqueue r _ _ (Nat.min_le_right _ _)
  obtain ⟨hothers, hothersE, -, htime, hpoller, hpasses, hport⟩ := honly.answered _
  have hshown : (takeSetqueue r (min q 9999) s.popInput).shownQueue r = ((reportZero r s1).ests.find r).map fun e =>
      (e.q, e.wait) := rfl
  rw [hshown, hests, Option.map_some] at hserve
  refine ⟨_, _, exec_served rfl hoff (.inl (day_ne_opening hd)) hserve, ?_, ?_, ?_, ?_, ?_, ?_, ?_, ?_, ?_,
    replied_of_moves _ hoff hmoves, hothers, hothersE, htime, hpoller, hpasses, hport⟩
  · rw [(enterReply_keeps _ _).2.2.2.1]
    exact hests
  · split
    next h => exact h.2.1.symm
    next => rfl
  · split <;> rfl
  · split <;> rfl
  · split <;> rfl
  · split <;> rfl
  · split <;> rfl
  · split <;> rfl
  · rw [(enterReply_keeps _ _).2.1]
    have hzero : min q 9999 = 0 ↔ q = 0 := by omega
    simp only [hzero] at hunits
    exact hunits

end Sys2Proof.Machine
end

section
/-! A good reply: what it does to the ride, to its estimator and to the notices. O51. -/

namespace Sys2Proof.Machine

open Sys2Proof.Safety

/-! ### The notices that a ride's affairs leave -/

/-- Nothing pending is taken back, and the images stand but those of STALL and of the book's levels. -/
structure NoticesHeld (s t : State) : Prop where
  image : ∀ id : SlotId, id.cls ≠ .slots → id.cls ≠ .flex → id.cls ≠ .stall → (t.slot id).image = (s.slot id).image
  pending : ∀ id : SlotId, (s.slot id).pending.isSome = true → (t.slot id).pending.isSome = true

theorem noticesHeld_of_slots {s t : State} (h : t.notices.slots = s.notices.slots) : NoticesHeld s t :=
  ⟨fun id _ _ _ => by rw [slot_congr h], fun id hp => by rwa [slot_congr h]⟩

theorem NoticesHeld.refl (s : State) : NoticesHeld s s := noticesHeld_of_slots rfl

theorem NoticesHeld.trans {s t u : State} (h : NoticesHeld s t) (g : NoticesHeld t u) : NoticesHeld s u :=
  ⟨fun id h1 h2 h3 => (g.image id h1 h2 h3).trans (h.image id h1 h2 h3), fun id hp => g.pending id (h.pending id hp)⟩

theorem modEst_held (r : Nat) (f : Estimator → Estimator) (s : State) : NoticesHeld s (s.modEst r f) :=
  noticesHeld_of_slots rfl

theorem setPending_keepsPending (j : SlotId) (level : Bool) (detail : Nat) (s : State) (id : SlotId)
    (h : (s.slot id).pending.isSome = true) : ((setPending j level detail s).slot id).pending.isSome = true := by
  by_cases hj : id = j
  · rw [hj]
    exact setPending_pending_isSome j level detail s
  · unfold setPending
    split
    · exact h
    · dsimp only
      split
      · rw [slot_setSlot, if_neg (Ne.symm hj)]
        exact h
      · rw [(joinSendList_slot _ _ _).1, slot_setSlot, if_neg (Ne.symm hj)]
        exact h

theorem reportEvent_held (cls : NoteClass) (src detail : Nat) (s : State) : NoticesHeld s (reportEvent cls src detail s) :=
  ⟨fun id _ _ _ => reportEvent_image cls src detail s id, fun id h => setPending_keepsPending _ _ _ s id h⟩

theorem setImage_pending (s : State) (j id : SlotId) (level : Bool) :
    ((s.setSlot j { s.slot j with image := level }).slot id).pending = (s.slot id).pending := by
  rw [slot_setSlot]
  split
  next h => rw [h]
  next => rfl

theorem reportLevel_keepsPending (cls : NoteClass) (src : Nat) (level : Bool) (detail : Nat) (s : State) (id : SlotId)
    (h : (s.slot id).pending.isSome = true) : ((reportLevel cls src level detail s).slot id).pending.isSome = true := by
  unfold reportLevel
  dsimp only
  split
  · exact h
  · rw [← setImage_pending s ⟨cls, src⟩ id level] at h
    split
    · exact setPending_keepsPending _ _ _ _ id h
    · exact h

theorem reportLevel_held {cls : NoteClass} (src : Nat) (level : Bool) (detail : Nat) (s : State)
    (hcls : cls = .slots ∨ cls = .flex ∨ cls = .stall) : NoticesHeld s (reportLevel cls src level detail s) := by
  refine ⟨fun id h1 h2 h3 => ?_, reportLevel_keepsPending cls src level detail s⟩
  rw [reportLevel_image, if_neg]
  rintro rfl
  rcases hcls with h | h | h
  · exact h1 h
  · exact h2 h
  · exact h3 h

theorem setWait_held (r : Nat) (w : Option Wait) (s : State) : NoticesHeld s (setWait r w s) := by
  have hblink : ∀ f, NoticesHeld s (blinkRide r (s.modEst r f)) := fun f => noticesHeld_of_slots rfl
  unfold setWait
  split
  · exact .refl s
  · dsimp only
    split
    · exact .refl s
    · split
      · split
        · exact (hblink _).trans (reportEvent_held _ _ _ _)
        · exact hblink _
      · exact hblink _

theorem estimatorHears_held (r : Nat) (new : RideState) (s : State) : NoticesHeld s (estimatorHears r new s) := by
  rw [estimatorHears_eq]
  split
  · split
    · split
      · refine (modEst_held r (Estimator.hears new) s).trans ?_
        unfold computeOnly
        split
        · exact modEst_held r _ _
        · exact .refl _
      · refine (modEst_held r (Estimator.hears new) s).trans ?_
        unfold publishNow
        split
        · exact (modEst_held r _ _).trans (setWait_held _ _ _)
        · exact .refl _
    · exact modEst_held r _ s
  · exact (modEst_held r _ s).trans (setWait_held _ _ _)

theorem judgeSlots_held (r : Nat) (s : State) : NoticesHeld s (judgeSlots r s) := by
  unfold judgeSlots
  split
  · exact .refl s
  · exact NoticesHeld.trans (noticesHeld_of_slots (by simp)) (reportLevel_held _ _ _ _ (.inl rfl))

theorem judgeFlex_held (r : Nat) (s : State) : NoticesHeld s (judgeFlex r s) := by
  unfold judgeFlex
  dsimp only
  split
  · exact .refl s
  · exact NoticesHeld.trans (noticesHeld_of_slots (by simp)) (reportLevel_held _ _ _ _ (.inr (.inl rfl)))

theorem bookHears_held (r : Nat) (new : RideState) (since : Option Nat) (s : State) :
    NoticesHeld s (bookHears r new since s) := by
  have hmark : NoticesHeld s (if new.inService then s else markWindows r since s) := by
    split
    · exact .refl s
    · exact noticesHeld_of_slots (by simp)
  rw [bookHears_eq, bookTakes]
  refine NoticesHeld.trans (hmark.trans ?_) (judgeSlots_held r _)
  generalize (if new.inService then s else markWindows r since s) = t
  split
  · exact NoticesHeld.trans (noticesHeld_of_slots (by simp)) (judgeFlex_held r _)
  · exact .refl _

theorem foldl_held {α : Type} (f : State → α → State) (h : ∀ s x, NoticesHeld s (f s x)) (xs : List α) (s : State) :
    NoticesHeld s (xs.foldl f s) := by
  induction xs generalizing s with
  | nil => exact .refl s
  | cons x xs ih => exact (h s x).trans (ih _)

theorem takeLate_held (pick : StateReport → Bool) (s : State) : NoticesHeld s (takeLate pick s) := by
  have hstart : NoticesHeld s { s with book := { s.book with late := s.book.late.filter fun rep => !pick rep } } :=
    noticesHeld_of_slots rfl
  exact hstart.trans (foldl_held _ (fun s (rep : StateReport) => bookHears_held rep.ride rep.new rep.since s) _ _)

theorem reportToBook_held (rep : StateReport) (s : State) : NoticesHeld s (reportToBook rep s) := by
  unfold reportToBook
  split
  · exact noticesHeld_of_slots (by simp)
  · have hdraw : NoticesHeld s (if s.meetsGraceEnd rep then s.takeGraceOrder.2 else s) := by
      split
      · exact noticesHeld_of_slots (by simp)
      · exact .refl s
    exact (hdraw.trans (takeLate_held _ _)).trans (bookHears_held _ _ _ _)

theorem hear_held (rep : StateReport) (s : State) (h : Hearer) : NoticesHeld s (hear rep s h) := by
  cases h with
  | estimator => exact estimatorHears_held _ _ s
  | book => exact reportToBook_held rep s
  | boards => exact noticesHeld_of_slots (by simp [hear])
  | stallNotice =>
    rw [hear_stallNotice]
    split
    · exact .refl s
    · exact reportLevel_held _ _ _ _ (.inr (.inr rfl))
  | stateNotice => exact reportEvent_held _ _ _ s

theorem changeState_held (r : Nat) (new : RideState) (s : State) : NoticesHeld s (changeState r new s) := by
  unfold changeState
  split
  · exact .refl s
  · exact NoticesHeld.trans (noticesHeld_of_slots (by simp)) (foldl_held _ (hear_held _) _ _)

theorem closeCheck_held (r : Nat) (s : State) : NoticesHeld s (closeCheck r s) := by
  unfold closeCheck
  split
  · exact changeState_held r _ s
  · exact .refl s

theorem enterState_held (r : Nat) (new : RideState) (s : State) : NoticesHeld s (enterState r new s) := by
  unfold enterState
  dsimp only
  split
  · exact (changeState_held r new s).trans (closeCheck_held r _)
  · exact changeState_held r new s

theorem reportZero_held (r : Nat) (s : State) : NoticesHeld s (reportZero r s) := by
  unfold reportZero
  split
  · exact .refl s
  · split
    · exact closeCheck_held r s
    · exact .refl s

/-! ### A report, as the Ride State Unit takes it (R28 to R33) -/

theorem testCheck_held (r : Nat) (s : State) : NoticesHeld s (testCheck r s) := by
  unfold testCheck
  split
  · exact .refl s
  · split
    · exact enterState_held r _ s
    · exact .refl s

theorem rideOnly_testCheck (r : Nat) (s : State) : RideOnly r s (testCheck r s) := by
  unfold testCheck
  split
  · exact .refl r s
  · split
    · exact rideOnly_enterState r _ s
    · exact .refl r s

theorem unitReport_held (r code : Nat) (n : Option Nat) (s : State) : NoticesHeld s (unitReport r code n s) := by
  unfold unitReport
  refine NoticesHeld.trans (noticesHeld_of_slots (by simp) : NoticesHeld s (s.modUnit r (RideUnit.takeReport code n))) ?_
  dsimp only
  split
  · exact .refl _
  · split
    · exact enterState_held r _ _
    · exact testCheck_held r _

theorem rideOnly_unitReport (r code : Nat) (n : Option Nat) (s : State) : RideOnly r s (unitReport r code n s) := by
  unfold unitReport
  refine (rideOnly_modUnit r (RideUnit.takeReport code n) s).trans ?_
  dsimp only
  split
  · exact .refl r _
  · split
    · exact rideOnly_enterState r _ _
    · exact rideOnly_testCheck r _

/-- Only a test that is complete or a stall that ends takes a ride into another state by a report. -/
theorem unitReport_units_same {r code : Nat} {n : Option Nat} {s : State} {u : RideUnit} (hu : s.units.find r = some u)
    (hs : 0 < n.getD 0 → u.state.stalled = false) (ht : (u.takeReport code n).testDone = false) :
    unitReport r code n s = s.modUnit r (RideUnit.takeReport code n) := by
  have hu1 : (s.modUnit r (RideUnit.takeReport code n)).units.find r = some (u.takeReport code n) := by simp [hu]
  simp only [unitReport, hu1, takeReport_state]
  rw [if_neg fun h => by simp [hs h.1] at h]
  simp only [testCheck, hu1, ht, Bool.false_eq_true, if_false]

theorem unitReport_opens {r code : Nat} {n : Option Nat} {s : State} {u : RideUnit} (hu : s.units.find r = some u)
    (h : (0 < n.getD 0 ∧ u.state.stalled = true) ∨ ((u.takeReport code n).testDone = true ∧ s.time.closePassed = false)) :
    unitReport r code n s = enterState r .opened (s.modUnit r (RideUnit.takeReport code n)) := by
  have hu1 : (s.modUnit r (RideUnit.takeReport code n)).units.find r = some (u.takeReport code n) := by simp [hu]
  simp only [unitReport, hu1, takeReport_state]
  by_cases hstall : 0 < n.getD 0 ∧ u.state.stalled = true
  · rw [if_pos hstall]
  · obtain ⟨hdone, hclose⟩ := h.resolve_left hstall
    rw [if_neg hstall]
    simp only [testCheck, hu1, hdone, if_true, State.modUnit_time, hclose, Bool.false_eq_true, if_false]

/-- How a ride's estimate may stand after a state change: heard, and with no minute made eligible. -/
structure EstimatorHeard (e e' : Estimator) : Prop where
  kept : EstimatorKept e e'
  eligible : e.eligible = false → e'.eligible = false

theorem EstimatorHeard.refl (e : Estimator) : EstimatorHeard e e := ⟨⟨rfl, rfl, rfl, rfl, rfl, rfl⟩, id⟩

theorem EstimatorHeard.trans {e f g : Estimator} (h : EstimatorHeard e f) (k : EstimatorHeard f g) : EstimatorHeard e g :=
  ⟨⟨k.kept.s.trans h.kept.s, k.kept.sr.trans h.kept.sr, k.kept.m.trans h.kept.m, k.kept.mr.trans h.kept.mr,
    k.kept.stale.trans h.kept.stale, k.kept.staleTimer.trans h.kept.staleTimer⟩, fun he => k.eligible (h.eligible he)⟩

theorem hears_eligible (new : RideState) {e : Estimator} (h : e.eligible = false) : (e.hears new).eligible = false := by
  unfold Estimator.hears
  dsimp only
  split
  · split <;> split <;> exact h
  · rfl

theorem heard_heard (p : Params) (u : Option RideUnit) (new : RideState) (e : Estimator) :
    EstimatorHeard e (e.heard p u new) := by
  refine ⟨heard_kept p u new e, fun he => ?_⟩
  have h := hears_eligible new he
  unfold Estimator.heard
  split
  · split
    · exact h
    · split <;> exact h
  · exact h

section
variable {r : Nat} {e : Estimator} {s : State}

theorem changeState_estimator (new : RideState) (he : s.ests.find r = some e) :
    ∃ e', (changeState r new s).ests.find r = some e' ∧ EstimatorHeard e e' := by
  cases hu : s.units.find r with
  | none => exact ⟨e, by simp [changeState, hu, he], .refl e⟩
  | some u => exact ⟨_, by rw [changeState_ests_find new hu, if_pos rfl, he]; rfl, heard_heard _ _ _ e⟩

theorem closeCheck_estimator (he : s.ests.find r = some e) :
    ∃ e', (closeCheck r s).ests.find r = some e' ∧ EstimatorHeard e e' := by
  unfold closeCheck
  split
  · exact changeState_estimator .closed he
  · exact ⟨e, he, .refl e⟩

theorem enterState_estimator (new : RideState) (he : s.ests.find r = some e) :
    ∃ e', (enterState r new s).ests.find r = some e' ∧ EstimatorHeard e e' := by
  obtain ⟨e1, he1, h1⟩ := changeState_estimator new he
  unfold enterState
  dsimp only
  split
  · obtain ⟨e2, he2, h2⟩ := closeCheck_estimator he1
    exact ⟨e2, he2, h1.trans h2⟩
  · exact ⟨e1, he1, h1⟩

theorem unitReport_estimator (code : Nat) (n : Option Nat) (he : s.ests.find r = some e) :
    ∃ e', (unitReport r code n s).ests.find r = some e' ∧ EstimatorHeard e e' := by
  have he1 : (s.modUnit r (RideUnit.takeReport code n)).ests.find r = some e := he
  unfold unitReport
  dsimp only
  split
  · exact ⟨e, he1, .refl e⟩
  · split
    · exact enterState_estimator .opened he1
    · unfold testCheck
      split
      · exact ⟨e, he1, .refl e⟩
      · split
        · exact enterState_estimator _ he1
        · exact ⟨e, he1, .refl e⟩

end

/-! ### A good reply, as its receivers take it (R48 to R55) -/

theorem unitReply_eq (r : Nat) (prev : Link) (code : Nat) (k : ReplyKind) (s : State) :
    unitReply r prev code k s = unitReport r code k.dispatches s := by
  unfold unitReply unitLink
  cases prev <;> rfl

theorem rideOnly_estimatorUp (r : Nat) (prev : Link) (s : State) :
    RideOnly r s (if prev = .up then s else estimatorLink r prev .up s) := by
  unfold estimatorLink
  split
  · exact .refl r s
  · rw [if_neg (by decide)]
    split
    · exact rideOnly_modEst r _ s
    · exact .refl r s

theorem estimatorUp_held (r : Nat) (prev : Link) (s : State) :
    NoticesHeld s (if prev = .up then s else estimatorLink r prev .up s) := by
  unfold estimatorLink
  split
  · exact .refl s
  · rw [if_neg (by decide)]
    split
    · exact noticesHeld_of_slots rfl
    · exact .refl s

theorem rideOnly_estimatorCounts (r : Nat) (d : Counters) (s : State) : RideOnly r s (estimatorCounts r d s) := by
  unfold estimatorCounts
  split
  · exact .refl r s
  · exact (rideOnly_modEst r _ s).trans (rideOnly_reportZero r _)

theorem estimatorCounts_held (r : Nat) (d : Counters) (s : State) : NoticesHeld s (estimatorCounts r d s) := by
  unfold estimatorCounts
  split
  · exact .refl s
  · exact (modEst_held r _ s).trans (reportZero_held r _)

theorem rideOnly_estimatorReply (r : Nat) (prev : Link) (k : ReplyKind) (s : State) :
    RideOnly r s (estimatorReply r prev k s) := by
  refine (rideOnly_estimatorUp r prev s).trans ?_
  unfold estimatorReply
  cases k with
  | baselineOnly => exact .refl r _
  | implausible => exact rideOnly_modEst r _ _
  | counted d => exact rideOnly_estimatorCounts r d _

theorem estimatorReply_held (r : Nat) (prev : Link) (k : ReplyKind) (s : State) :
    NoticesHeld s (estimatorReply r prev k s) := by
  refine (estimatorUp_held r prev s).trans ?_
  unfold estimatorReply
  cases k with
  | baselineOnly => exact .refl _
  | implausible => exact noticesHeld_of_slots rfl
  | counted d => exact estimatorCounts_held r d _

theorem rideOnly_takeHandover (r : Nat) (s : State) : RideOnly r s s.takeHandover.2 :=
  ⟨othersKept_of_eq r (by simp), othersKept_of_eq r (by simp), bookHeard_of_rides (by simp) (passesKept_of_eq (by simp)),
    by simp, by simp, portKept_of_eq (by simp)⟩

theorem rideOnly_handOver (r : Nat) (prev : Link) (code : Nat) (k : ReplyKind) (s : State) :
    RideOnly r s (handOver r prev code k s) := by
  unfold handOver
  dsimp only
  rw [unitReply_eq, unitReply_eq]
  split
  · exact ((rideOnly_takeHandover r s).trans (rideOnly_unitReport r _ _ _)).trans (rideOnly_estimatorReply r _ _ _)
  · exact ((rideOnly_takeHandover r s).trans (rideOnly_estimatorReply r _ _ _)).trans (rideOnly_unitReport r _ _ _)

theorem handOver_held (r : Nat) (prev : Link) (code : Nat) (k : ReplyKind) (s : State) :
    NoticesHeld s (handOver r prev code k s) := by
  have hdraw : NoticesHeld s s.takeHandover.2 := noticesHeld_of_slots (by simp)
  unfold handOver
  dsimp only
  rw [unitReply_eq, unitReply_eq]
  split
  · exact (hdraw.trans (unitReport_held r _ _ _)).trans (estimatorReply_held r _ _ _)
  · exact (hdraw.trans (estimatorReply_held r _ _ _)).trans (unitReport_held r _ _ _)

end Sys2Proof.Machine
end

section
/-! The obligations about good replies: O51, O52. -/

namespace Sys2Proof.Machine

open Sys2Proof.Safety

/-! ### The thirteen bytes of a report (R45, R184) -/

theorem length_ten {α : Type} {xs : List α} (h : xs.length = 10) :
    ∃ a b c d e f g i j k, xs = [a, b, c, d, e, f, g, i, j, k] := by
  match xs, h with
  | [a, b, c, d, e, f, g, i, j, k], _ => exact ⟨a, b, c, d, e, f, g, i, j, k, rfl⟩

theorem getNums_report (a c e1 e0 s1 s0 r1 r0 d1 d0 : Byte) :
    getNums [1, 1, 2, 2, 2, 2] [a, c, e1, e0, s1, s0, r1, r0, d1, d0] =
      some ([a.toNat, c.toNat, e1.toNat * 256 + e0.toNat, s1.toNat * 256 + s0.toNat, r1.toNat * 256 + r0.toNat,
        d1.toNat * 256 + d0.toNat], []) := by
  simp [getNums, getNum]

theorem judgeReport_iff (address : Nat) (bs : List Byte) (rep : Report) : judgeReport address bs = some rep ↔
    ∃ a c e1 e0 s1 s0 r1 r0 d1 d0 : Byte,
      bs = 0xA5#8 :: ([a, c, e1, e0, s1, s0, r1, r0, d1, d0] ++ crcBytes [a, c, e1, e0, s1, s0, r1, r0, d1, d0]) ∧
      a.toNat = address ∧
      rep = { code := c.toNat
              counters := { entered := e1.toNat * 256 + e0.toNat, standby := s1.toNat * 256 + s0.toNat
                            ret := r1.toNat * 256 + r0.toNat, dispatches := d1.toNat * 256 + d0.toNat } } := by
  constructor
  · intro h
    cases bs with
    | nil => cases h
    | cons start rest =>
      simp only [judgeReport] at h
      split at h
      next hshape =>
        obtain ⟨rfl, hlen, hcrc⟩ := hshape
        obtain ⟨a, c, e1, e0, s1, s0, r1, r0, d1, d0, hten⟩ := length_ten (xs := rest.take 10) (by simp [hlen])
        have hrest : rest = rest.take 10 ++ crcBytes (rest.take 10) := by rw [← hcrc, List.take_append_drop]
        rw [hten] at hrest h
        rw [getNums_report] at h
        dsimp only at h
        split at h
        next ha =>
          cases h
          exact ⟨a, c, e1, e0, s1, s0, r1, r0, d1, d0, by rw [hrest], ha, rfl⟩
        next => cases h
      next => cases h
  · rintro ⟨a, c, e1, e0, s1, s0, r1, r0, d1, d0, rfl, ha, rfl⟩
    have hshape : ∀ xs : List Byte, xs.length = 10 → (xs ++ crcBytes xs).length = 12 ∧
        (xs ++ crcBytes xs).drop 10 = crcBytes ((xs ++ crcBytes xs).take 10) ∧ (xs ++ crcBytes xs).take 10 = xs := by
      intro xs hlen
      have htake : (xs ++ crcBytes xs).take 10 = xs := by rw [List.take_append_of_le_length (by omega), List.take_of_length_le (by omega)]
      refine ⟨by simp [hlen, crcBytes], ?_, htake⟩
      rw [htake, List.drop_append_of_le_length (by omega), List.drop_of_length_le (by omega), List.nil_append]
    obtain ⟨h12, hdrop, htake⟩ := hshape [a, c, e1, e0, s1, s0, r1, r0, d1, d0] rfl
    simp only [judgeReport]
    rw [if_pos ⟨trivial, h12, hdrop⟩, htake, getNums_report]
    exact if_pos ha

/-- The poll that is out is answered by a good report. -/
theorem exec_goodReply {s : State} {r address : Nat} {got bytes : List Byte} {rep : Report}
    (hline : s.poller.line = .outstanding r address got) (hlong : 13 ≤ (got ++ bytes).length)
    (hgood : judgeReport address ((got ++ bytes).take 13) = some rep) :
    exec (.goodReply bytes) s = .next (takeGoodReply r rep { s with poller := { s.poller with line := .idle } }) := by
  have hlong : Config.reportBytes ≤ (got ++ bytes).length := hlong
  have hgood : judgeReport address ((got ++ bytes).take Config.reportBytes) = some rep := hgood
  refine exec_next rfl ?_
  simp only [takeFieldBytes, hline, if_pos hlong, judgePoll, hgood]

/-! ### What the receivers make of it -/

/-- The estimate of a ride whose link comes UP (R77, R78). -/
def Estimator.linkUp (prev : Link) (e : Estimator) : Estimator :=
  if prev = .lost then { e with staleTimer := 0, renew := e.renew || e.stale, stale := false } else e

theorem estimatorUp_find (r : Nat) (prev : Link) (s : State) :
    (if prev = .up then s else estimatorLink r prev .up s).ests.find r = (s.ests.find r).map (Estimator.linkUp prev) := by
  unfold estimatorLink Estimator.linkUp
  cases prev <;> simp

theorem estimatorUp_units (r : Nat) (prev : Link) (s : State) :
    (if prev = .up then s else estimatorLink r prev .up s).units = s.units := by
  split <;> simp

theorem estimatorReply_baseline_find (r : Nat) (prev : Link) (s : State) :
    (estimatorReply r prev .baselineOnly s).ests.find r = (s.ests.find r).map (Estimator.linkUp prev) :=
  estimatorUp_find r prev s

theorem estimatorReply_implausible_find (r : Nat) (prev : Link) (s : State) :
    (estimatorReply r prev .implausible s).ests.find r =
      (s.ests.find r).map fun e => { e.linkUp prev with eligible := false } := by
  have h := estimatorUp_find r prev s
  unfold estimatorReply
  simp only [State.modEst_ests, Table.find_update, if_true, h, Option.map_map]
  rfl

theorem estimatorReply_units (r : Nat) (prev : Link) {k : ReplyKind} (s : State) (hk : k.dispatches = none) :
    (estimatorReply r prev k s).units = s.units := by
  have h := estimatorUp_units r prev s
  cases k with
  | baselineOnly => exact h
  | implausible => exact h
  | counted d => cases hk

/-- Whatever its kind, a reply ends the staleness of a ride that was LOST. -/
theorem estimatorReply_fresh {r : Nat} (k : ReplyKind) {e : Estimator} {s : State} (he : s.ests.find r = some e) :
    ∃ e', (estimatorReply r .lost k s).ests.find r = some e' ∧ e'.stale = false ∧ e'.staleTimer = 0 := by
  have hup := estimatorUp_find r .lost s
  rw [he, Option.map_some] at hup
  cases k with
  | baselineOnly => exact ⟨_, hup, rfl, rfl⟩
  | implausible => exact ⟨_, by rw [estimatorReply_implausible_find, he]; rfl, rfl, rfl⟩
  | counted d =>
    unfold estimatorReply
    dsimp only
    set s1 := if Link.lost = .up then s else estimatorLink r .lost .up s
    unfold estimatorCounts
    split
    · exact ⟨_, hup, rfl, rfl⟩
    next u hu =>
      have hcounted : (s1.modEst r (Estimator.takeCounts (u.state = .closed) d.entered d.standby d.ret)).ests.find r =
          some ((e.linkUp .lost).takeCounts (u.state = .closed) d.entered d.standby d.ret) := by simp [hup]
      unfold reportZero
      rw [hcounted]
      dsimp only
      split
      · obtain ⟨e', he', hheard⟩ := closeCheck_estimator hcounted
        exact ⟨e', he', hheard.kept.stale, hheard.kept.staleTimer⟩
      · exact ⟨_, hcounted, rfl, rfl⟩

theorem handOver_fresh {r code : Nat} (k : ReplyKind) {e : Estimator} {s : State} (he : s.ests.find r = some e) :
    ∃ e', (handOver r .lost code k s).ests.find r = some e' ∧ e'.stale = false ∧ e'.staleTimer = 0 := by
  have he1 : s.takeHandover.2.ests.find r = some e := by simp [he]
  unfold handOver
  dsimp only
  rw [unitReply_eq, unitReply_eq]
  split
  · obtain ⟨e1, hunit, -⟩ := unitReport_estimator code k.dispatches he1
    exact estimatorReply_fresh k hunit
  · obtain ⟨e1, hest, hstale, htimer⟩ := estimatorReply_fresh k he1
    obtain ⟨e2, hunit, hheard⟩ := unitReport_estimator code k.dispatches hest
    exact ⟨e2, hunit, hheard.kept.stale.trans hstale, hheard.kept.staleTimer.trans htimer⟩

theorem takeReport_not_testing {u : RideUnit} (code : Nat) (n : Option Nat) (h : u.state.isTesting = false) :
    (u.takeReport code n).testDone = false := by
  simp [RideUnit.testDone, takeReport_state, h]

/-- A reply without counts moves one timer of a ride that is in no test. -/
theorem handOver_units {r code : Nat} (prev : Link) {k : ReplyKind} {u : RideUnit} {s : State}
    (hk : k.dispatches = none) (hu : s.units.find r = some u) (ht : u.state.isTesting = false) :
    (handOver r prev code k s).units.find r = some (u.takeCode code) := by
  have hreport : ∀ x : State, x.units = s.units → (unitReport r code none x).units.find r = some (u.takeCode code) := by
    intro x hx
    have hux : x.units.find r = some u := hx ▸ hu
    rw [unitReport_units_same hux (by simp) (takeReport_not_testing code none ht)]
    simp [hux, RideUnit.takeReport]
  unfold handOver
  dsimp only
  rw [unitReply_eq, unitReply_eq, hk]
  split
  · rw [estimatorReply_units r prev _ hk]
    exact hreport _ (by simp)
  · exact hreport _ (by rw [estimatorReply_units r prev _ hk]; simp)

/-- An implausible reply spoils the minute, and counts nothing. -/
theorem handOver_implausible {r code : Nat} (prev : Link) {e : Estimator} {s : State} (he : s.ests.find r = some e) :
    ∃ e', (handOver r prev code .implausible s).ests.find r = some e' ∧ e'.eligible = false ∧ e'.m = e.m ∧ e'.mr = e.mr := by
  have he1 : s.takeHandover.2.ests.find r = some e := by simp [he]
  have hup : ∀ e : Estimator, (e.linkUp prev).m = e.m ∧ (e.linkUp prev).mr = e.mr := fun e => by
    unfold Estimator.linkUp
    split <;> exact ⟨rfl, rfl⟩
  unfold handOver
  dsimp only
  rw [unitReply_eq, unitReply_eq]
  split
  · obtain ⟨e1, hunit, hheard⟩ := unitReport_estimator code none he1
    have hest : (estimatorReply r prev .implausible (unitReport r code none s.takeHandover.2)).ests.find r =
        some { e1.linkUp prev with eligible := false } := by
      rw [estimatorReply_implausible_find, hunit]
      rfl
    exact ⟨_, hest, rfl, (hup e1).1.trans hheard.kept.m, (hup e1).2.trans hheard.kept.mr⟩
  · have hest : (estimatorReply r prev .implausible s.takeHandover.2).ests.find r =
        some { e.linkUp prev with eligible := false } := by
      rw [estimatorReply_implausible_find, he1]
      rfl
    obtain ⟨e2, hunit, hheard⟩ := unitReport_estimator code ReplyKind.implausible.dispatches hest
    exact ⟨e2, hunit, hheard.eligible rfl, hheard.kept.m.trans (hup e).1, hheard.kept.mr.trans (hup e).2⟩

/-- The estimate of a ride that opens: published at once unless it is stale. -/
theorem heard_opened (p : Params) (u : RideUnit) (e : Estimator) :
    (e.stale = true → (e.heard p (some u) .opened).wait = e.wait ∧ (e.heard p (some u) .opened).renew = e.renew) ∧
    (e.stale = false → (e.heard p (some u) .opened).wait.isSome = true ∧ (e.heard p (some u) .opened).renew = false) := by
  refine ⟨fun h => ?_, fun h => ?_⟩ <;>
    simp [Estimator.heard, Estimator.hears, RideState.inService, RideState.isHeld, Estimator.compute, h]

/-- A test that a reply completes, for a ride that was LOST, in either order of the receivers. -/
theorem handOver_opens {r code : Nat} {u : RideUnit} {e : Estimator} {s : State} (hu : s.units.find r = some u)
    (he : s.ests.find r = some e) (hdone : u.testDone = true) (hclose : s.time.closePassed = false)
    (hstale : e.stale = true) (hwait : e.wait = none) :
    ((handOver r .lost code .baselineOnly s).units.find r).map (·.state) = some .opened ∧
    ∃ e', (handOver r .lost code .baselineOnly s).ests.find r = some e' ∧
      (s.takeHandover.1 = false → e'.wait.isSome = true ∧ e'.renew = false) ∧
      (s.takeHandover.1 = true → e'.wait = none ∧ e'.renew = true) := by
  have hopens : ∀ (x : State) (e1 : Estimator), x.units = s.units → x.time = s.time → x.ests.find r = some e1 →
      ((unitReport r code none x).units.find r).map (·.state) = some .opened ∧ ∃ p v,
        (unitReport r code none x).ests.find r = some (e1.heard p (some v) .opened) := by
    intro x e1 hxu hxt hxe
    have hux : x.units.find r = some u := hxu ▸ hu
    have hu1 : (x.modUnit r (RideUnit.takeReport code none)).units.find r = some (u.takeCode code) := by
      simp [hux, RideUnit.takeReport]
    rw [unitReport_opens hux (.inr ⟨by rw [RideUnit.takeReport, takeCode_testDone, hdone], by rw [hxt, hclose]⟩)]
    refine ⟨?_, x.time.params, { u.takeCode code with state := .opened }, ?_⟩
    · rw [enterState_units .opened hu1 (e := e1) hxe, entered_opened]
      rfl
    · rw [enterState, if_neg (by decide), changeState_ests_find .opened hu1, if_pos rfl]
      exact congrArg (Option.map _) hxe
  have hcode := handOver_orders r .lost code .baselineOnly s
  cases hfirst : s.takeHandover.1 with
  | true =>
    rw [hcode.1 hfirst, unitReply_eq]
    obtain ⟨hstate, p, v, hest⟩ := hopens s.takeHandover.2 e (by simp) (by simp) (by simp [he])
    have hst := (heard_opened p v e).1 hstale
    refine ⟨?_, (e.heard p (some v) .opened).linkUp .lost, ?_, nofun, fun _ => ⟨?_, ?_⟩⟩
    · rw [estimatorReply_units _ _ _ rfl]
      exact hstate
    · rw [estimatorReply_baseline_find]
      exact congrArg (Option.map _) hest
    · exact hst.1.trans hwait
    · simp [Estimator.linkUp, (heard_kept p (some v) .opened e).stale, hstale]
  | false =>
    rw [hcode.2 hfirst, unitReply_eq]
    have hup : (estimatorReply r .lost .baselineOnly s.takeHandover.2).ests.find r = some (e.linkUp .lost) := by
      rw [estimatorReply_baseline_find]
      simp [he]
    obtain ⟨hstate, p, v, hest⟩ := hopens (estimatorReply r .lost .baselineOnly s.takeHandover.2) _
      (by rw [estimatorReply_units _ _ _ rfl]; simp) (by simp) hup
    exact ⟨hstate, _, hest, fun _ => (heard_opened p v _).2 rfl, nofun⟩

/-! ### The notices of a reply (R49, R53) -/

theorem noticeReply_link (r : Nat) (f : FieldRecord) (k : ReplyKind) (s : State) :
    ((noticeReply r f k s).slot ⟨.link, r⟩).image = if f.link = .lost then false else (s.slot ⟨.link, r⟩).image := by
  have hfall : ((if f.link = .lost then reportLevel .link r false (saturate 255 f.misses) s else s).slot
      ⟨.link, r⟩).image = if f.link = .lost then false else (s.slot ⟨.link, r⟩).image := by
    split
    · rw [reportLevel_image, if_pos rfl]
    · rfl
  unfold noticeReply
  cases k with
  | implausible => exact (reportEvent_image _ _ _ _ _).trans hfall
  | baselineOnly => exact hfall
  | counted d => exact hfall

theorem noticeReply_gap (r : Nat) (f : FieldRecord) (s : State) :
    ((noticeReply r f .implausible s).slot ⟨.gap, r⟩).pending.isSome = true := reportEvent_pending _ _ _ _

/-! ### The kind of a reply (R51, R53) -/

theorem replyKind_baseline {f : FieldRecord} {rep : Report} (h : f.baseValid = false) : replyKind f rep = .baselineOnly := by
  simp [replyKind, h]

theorem replyKind_implausible {f : FieldRecord} {rep : Report} (h : f.baseValid = true)
    (hp : (rep.counters.since f.base).plausible = false) : replyKind f rep = .implausible := by
  simp [replyKind, h, hp]

theorem replyKind_counted {f : FieldRecord} {rep : Report} (h : f.baseValid = true)
    (hp : (rep.counters.since f.base).plausible = true) :
    replyKind f rep = .counted (rep.counters.since f.base) := by
  simp [replyKind, h, hp]

theorem replyKind_dispatches {f : FieldRecord} {rep : Report}
    (h : f.baseValid = false ∨ (rep.counters.since f.base).plausible = false) :
    (replyKind f rep).dispatches = none := by
  cases hb : f.baseValid with
  | false =>
    rw [replyKind_baseline hb]
    rfl
  | true =>
    rw [replyKind_implausible hb (h.resolve_left (by simp [hb]))]
    rfl

theorem replyKind_gap (f : FieldRecord) (rep : Report) : (replyKind f rep).gap f.gap =
    if f.baseValid = true ∧ (rep.counters.since f.base).plausible = false then min 255 (f.gap + 1) else f.gap := by
  cases hb : f.baseValid with
  | false =>
    rw [replyKind_baseline hb]
    rfl
  | true =>
    cases hp : (rep.counters.since f.base).plausible with
    | false =>
      rw [replyKind_implausible hb hp]
      exact saturate_eq_min _ _
    | true =>
      rw [replyKind_counted hb hp]
      rfl

/-- The state in which the receivers find a good reply of ride `r`. -/
theorem takeGoodReply_eq {r : Nat} {rep : Report} {s : State} {f : FieldRecord} (hf : s.poller.records.find r = some f) :
    ∃ x : State, takeGoodReply r rep s = handOver r f.link rep.code (replyKind f rep) x ∧ x.units = s.units ∧
      x.ests = s.ests ∧ x.book = s.book ∧ x.time = s.time ∧ x.orders = s.orders ∧ PortKept s x ∧
      (x.slot ⟨.link, r⟩).image = (if f.link = .lost then false else (s.slot ⟨.link, r⟩).image) ∧
      (replyKind f rep = .implausible → (x.slot ⟨.gap, r⟩).pending.isSome = true) := by
  let x := noticeReply r f (replyKind f rep) (s.modField r fun g =>
    { g with
      link := .up, misses := 0, lastCode := some rep.code, baseValid := true, base := rep.counters
      gap := (replyKind f rep).gap g.gap })
  have heq : takeGoodReply r rep s = handOver r f.link rep.code (replyKind f rep) x := by
    simp only [takeGoodReply, hf, x]
  refine ⟨x, heq, by simp [x], by simp [x], by simp [x], by simp [x], by simp [x],
    by constructor <;> simp [x], ?_,
    fun hk => ?_⟩
  · exact noticeReply_link _ _ _ _
  · simp only [x, hk]
    exact noticeReply_gap _ _ _

/-- Settles O51: what a good reply does to the field record, the ride, its estimate and its notices. -/
theorem goodReplyRecord : Obligations.GoodReplyRecord := by
  refine ⟨fun s r address got bytes rep f hline hlong hgood hf => ?_, judgeReport_iff⟩
  let s0 : State := { s with poller := { s.poller with line := .idle } }
  obtain ⟨x, heq, hxu, hxe, hxb, hxt, hxo, hxp, hxlink, hxgap⟩ := takeGoodReply_eq (rep := rep) (s := s0) hf
  have hpoller := takeGoodReply_record r rep s0 f hf
  have honly := rideOnly_handOver r f.link rep.code (replyKind f rep) x
  have hheld := handOver_held r f.link rep.code (replyKind f rep) x
  refine ⟨_, exec_goodReply hline hlong hgood, ?_⟩
  set t := takeGoodReply r rep s0 with ht
  rw [← heq] at honly hheld
  refine ⟨by rw [hpoller], ?_, fun j hj => by rw [hpoller]; simp [s0, Ne.symm hj], hxu ▸ honly.units, hxe ▸ honly.ests,
    honly.time.trans hxt, ?_, ?_, fun hlost => ⟨?_, fun e he => ?_⟩, fun hlost => ?_, fun u hu htest hkind => ?_,
    fun hbase himpl => ⟨?_, fun e he => ?_⟩, fun u e c hu he hlost hbase hclose hst hd hm hstale hwait => ?_⟩
  · have hgap : (replyKind f rep).gap f.gap =
        if f.baseValid = true ∧ (rep.counters.since f.base).plausible = false then min 255 (f.gap + 1) else f.gap := by
      rw [replyKind_gap]
    rw [hpoller, ← hgap]
    simp [s0, hf]
  · exact passesKept_trans (passesKept_of_eq (s := s) hxb) honly.book.passes
  · exact portKept_trans (portKept_trans (portKept_of_eq (s := s) (t := s0) rfl) hxp) honly.port
  · rw [hheld.image _ (by simp) (by simp) (by simp), hxlink, if_pos hlost]
  · rw [heq, hlost]
    exact handOver_fresh _ (hxe ▸ he)
  · rw [hheld.image _ (by simp) (by simp) (by simp), hxlink, if_neg hlost]
    rfl
  · have hk : (replyKind f rep).dispatches = none := replyKind_dispatches hkind
    rw [heq, handOver_units f.link hk (hxu ▸ hu) htest, RideUnit.takeCode]
    simp only [faultCode, decide_eq_true_eq]
  · exact hheld.pending _ (hxgap (replyKind_implausible hbase himpl))
  · rw [heq, replyKind_implausible hbase himpl]
    exact handOver_implausible f.link (hxe ▸ he)
  · have hdone : u.testDone = true := (testDone_iff u).mpr ⟨(isTesting_iff _).mpr ⟨c, hst⟩, hd, hm⟩
    have hfirst : x.takeHandover.1 = s.takeHandover.1 := takeHandover_of_orders x s hxo
    have hclose : x.time.closePassed = false := by
      rw [hxt]
      exact hclose
    rw [heq, hlost, replyKind_baseline hbase, ← hfirst]
    exact handOver_opens (hxu ▸ hu) (hxe ▸ he) hdone hclose hstale hwait

/-! ### A delta report (R52, R54, R61, R65) -/

/-- The ride record after a report with `n` dispatches: a stall ends, and a test that is complete leaves for OPEN. -/
def RideUnit.reported (code n : Nat) (now : Option Nat) (u : RideUnit) : RideUnit :=
  if (0 < n ∧ u.state.stalled = true) ∨ (u.takeReport code (some n)).testDone = true then
    { u.takeReport code (some n) with state := .opened, since := now, stall := 0 }
  else u.takeReport code (some n)

/-- The counts of an estimate that only a delta report and SETQUEUE move. -/
structure CountsKept (e e' : Estimator) : Prop where
  q : e'.q = e.q
  m : e'.m = e.m
  mr : e'.mr = e.mr
  s : e'.s = e.s
  sr : e'.sr = e.sr

theorem heard_opened_counts (p : Params) (u : RideUnit) (e : Estimator) : CountsKept e (e.heard p (some u) .opened) := by
  have hq : (e.heard p (some u) .opened).q = e.q := by
    simp only [Estimator.heard, RideState.inService, if_true]
    split <;> rfl
  have h := heard_kept p (some u) .opened e
  exact ⟨hq, h.m, h.mr, h.s, h.sr⟩

section
variable {r : Nat} {u : RideUnit} {e : Estimator} {s : State}

/-- A counted report, as the Ride State Unit takes it before park close. -/
theorem unitReport_counted (code n : Nat) (hu : s.units.find r = some u) (he : s.ests.find r = some e)
    (hclose : u.state.isTesting = true → s.time.closePassed = false) :
    (unitReport r code (some n) s).units.find r = some (u.reported code n s.clockNow) ∧
    ∃ e', (unitReport r code (some n) s).ests.find r = some e' ∧ CountsKept e e' := by
  have hu1 : (s.modUnit r (RideUnit.takeReport code (some n))).units.find r = some (u.takeReport code (some n)) := by
    simp [hu]
  have he1 : (s.modUnit r (RideUnit.takeReport code (some n))).ests.find r = some e := he
  unfold RideUnit.reported
  by_cases hopen : (0 < n ∧ u.state.stalled = true) ∨ (u.takeReport code (some n)).testDone = true
  · have hrun : unitReport r code (some n) s = enterState r .opened (s.modUnit r (RideUnit.takeReport code (some n))) := by
      refine unitReport_opens hu (hopen.imp_right fun hdone => ⟨hdone, hclose ?_⟩)
      rw [← takeReport_state code (some n)]
      exact ((testDone_iff _).mp hdone).1
    rw [if_pos hopen, hrun, enterState_units .opened hu1 he1, entered_opened]
    refine ⟨rfl, _, ?_, heard_opened_counts s.time.params
      { u.takeReport code (some n) with state := .opened } e⟩
    rw [enterState, if_neg (by decide), changeState_ests_find .opened hu1, if_pos rfl, he1]
    rfl
  · have hrun : unitReport r code (some n) s = s.modUnit r (RideUnit.takeReport code (some n)) := by
      refine unitReport_units_same hu (fun hn => ?_) ?_
      · simpa using fun hst => hopen (.inl ⟨hn, hst⟩)
      · simpa using fun hdone => hopen (.inr hdone)
    rw [if_neg hopen, hrun]
    exact ⟨hu1, e, he1, ⟨rfl, rfl, rfl, rfl, rfl⟩⟩

/-- The counts of a report, as the Flow Estimator takes them; a CLOSING ride that has no guest left may close. -/
theorem estimatorCounts_counted (d : Counters) (hu : s.units.find r = some u) (he : s.ests.find r = some e) :
    ((estimatorCounts r d s).units.find r = some u ∨ (u.state = .closing ∧
      (estimatorCounts r d s).units.find r = some { u with state := .closed, since := s.clockNow })) ∧
    ∃ e', (estimatorCounts r d s).ests.find r = some e' ∧
      CountsKept (e.takeCounts (u.state = .closed) d.entered d.standby d.ret) e' := by
  let e1 := e.takeCounts (u.state = .closed) d.entered d.standby d.ret
  let s1 := s.modEst r (Estimator.takeCounts (u.state = .closed) d.entered d.standby d.ret)
  have hrun : estimatorCounts r d s = reportZero r s1 := by simp only [estimatorCounts, hu, s1]
  have he1 : s1.ests.find r = some e1 := by simp [s1, e1, he]
  have hunits := reportZero_units (s := s1) hu he1
  have hests := reportZero_ests (s := s1) hu he1
  rw [hrun]
  by_cases hc : u.state = .closing ∧ e1.q = 0 ∧ s1.allResolved r = true
  · rw [if_pos hc] at hunits hests
    exact ⟨.inr ⟨hc.1, hunits⟩, _, hests, ⟨hc.2.1.symm, rfl, rfl, rfl, rfl⟩⟩
  · rw [if_neg hc] at hunits hests
    exact ⟨.inl hunits, e1, hests, ⟨rfl, rfl, rfl, rfl, rfl⟩⟩

end

theorem takeCounts_congr {e f : Estimator} (h : CountsKept e f) (closed : Bool) (entered standby ret : Nat) :
    CountsKept (e.takeCounts closed entered standby ret) (f.takeCounts closed entered standby ret) :=
  ⟨by simp only [Estimator.takeCounts, h.q], by simp only [Estimator.takeCounts, h.m],
    by simp only [Estimator.takeCounts, h.mr], h.s, h.sr⟩

theorem CountsKept.trans {e f g : Estimator} (h : CountsKept e f) (k : CountsKept f g) : CountsKept e g :=
  ⟨k.q.trans h.q, k.m.trans h.m, k.mr.trans h.mr, k.s.trans h.s, k.sr.trans h.sr⟩

/-- A report leaves a CLOSING ride in its state, and a ride is CLOSED after it that was CLOSED before. -/
theorem reported_closing {code n : Nat} {now : Option Nat} {u : RideUnit}
    (h : u.state = .closing ∨ u.state = .closed) : u.reported code n now = u.takeReport code (some n) := by
  unfold RideUnit.reported
  rw [if_neg]
  rintro (⟨-, hst⟩ | hdone)
  · rcases h with h | h <;> rw [h] at hst <;> cases hst
  · have ht := ((testDone_iff _).mp hdone).1
    rw [takeReport_state] at ht
    rcases h with h | h <;> rw [h] at ht <;> cases ht

theorem reported_state_closed (code n : Nat) (now : Option Nat) (u : RideUnit) :
    (u.reported code n now).state = .closed ↔ u.state = .closed := by
  constructor
  · intro h
    unfold RideUnit.reported at h
    split at h
    · cases h
    · rwa [takeReport_state] at h
  · intro h
    rw [reported_closing (.inr h), takeReport_state, h]

theorem reported_state_closing {code n : Nat} {now : Option Nat} {u : RideUnit}
    (h : (u.reported code n now).state = .closing) : u.state = .closing := by
  unfold RideUnit.reported at h
  split at h
  · cases h
  · rwa [takeReport_state] at h

theorem takeReport_withState (code n : Nat) (u : RideUnit) (h : u.state = .closing) (since : Option Nat) :
    ({ u with state := .closed, since := since } : RideUnit).takeReport code (some n) =
      { u.takeReport code (some n) with state := .closed, since := since } := by
  simp only [RideUnit.takeReport, RideUnit.takeCode, RideUnit.takeDispatches, h]
  split <;> rfl

/-- A delta report in either order of its receivers: the ride is as reported, or has closed besides. -/
theorem handOver_counted {r code : Nat} {d : Counters} {u : RideUnit} {e : Estimator} {s : State}
    (hu : s.units.find r = some u) (he : s.ests.find r = some e)
    (hclose : u.state.isTesting = true → s.time.closePassed = false) :
    ∃ u' e', (handOver r .up code (.counted d) s).units.find r = some u' ∧
      (handOver r .up code (.counted d) s).ests.find r = some e' ∧
      CountsKept (e.takeCounts (u.state = .closed) d.entered d.standby d.ret) e' ∧
      (u' = u.reported code d.dispatches s.clockNow ∨ (u.state = .closing ∧
        u' = { u.takeReport code (some d.dispatches) with state := .closed, since := s.clockNow })) := by
  have hclock : ∀ x : State, x.time = s.time → x.clockNow = s.clockNow := fun x hx => by
    rw [State.clockNow, State.clockNow, hx]
  have hx := fun t : State => (show estimatorReply r .up (.counted d) t = estimatorCounts r d t from rfl)
  have hdisp : (ReplyKind.counted d).dispatches = some d.dispatches := rfl
  have hux : s.takeHandover.2.units.find r = some u := by simp [hu]
  have hex : s.takeHandover.2.ests.find r = some e := by simp [he]
  have hnow := hclock s.takeHandover.2 (by simp)
  unfold handOver
  dsimp only
  rw [unitReply_eq, unitReply_eq, hx, hx, hdisp]
  split
  · obtain ⟨hunit, e1, he1, hkept1⟩ := unitReport_counted code d.dispatches hux hex (by simpa using hclose)
    obtain ⟨hunit2, e2, he2, hkept2⟩ := estimatorCounts_counted d hunit he1
    have hclosed : decide ((u.reported code d.dispatches s.takeHandover.2.clockNow).state = .closed) =
        decide (u.state = .closed) := decide_eq_decide.mpr (reported_state_closed _ _ _ u)
    rw [hclosed] at hkept2
    have hnow2 := hclock (unitReport r code (some d.dispatches) s.takeHandover.2)
      ((rideOnly_unitReport r code _ _).time.trans (by simp))
    rcases hunit2 with hunit2 | ⟨hst, hunit2⟩
    · exact ⟨_, e2, hunit2, he2, (takeCounts_congr hkept1 _ _ _ _).trans hkept2, .inl (by rw [hnow])⟩
    · have hst := reported_state_closing hst
      refine ⟨_, e2, hunit2, he2, (takeCounts_congr hkept1 _ _ _ _).trans hkept2, .inr ⟨hst, ?_⟩⟩
      rw [reported_closing (.inl hst), hnow2]
  · obtain ⟨hunit, e1, he1, hkept1⟩ := estimatorCounts_counted d hux hex
    have hnow1 := hclock (estimatorCounts r d s.takeHandover.2) ((rideOnly_estimatorCounts r d _).time.trans (by simp))
    have hclose1 : u.state.isTesting = true → (estimatorCounts r d s.takeHandover.2).time.closePassed = false := by
      rw [(rideOnly_estimatorCounts r d _).time]
      simpa using hclose
    rcases hunit with hunit | ⟨hst, hunit⟩
    · obtain ⟨hunit2, e2, he2, hkept2⟩ := unitReport_counted code d.dispatches hunit he1 hclose1
      exact ⟨_, e2, hunit2, he2, hkept1.trans hkept2, .inl (by rw [hnow1])⟩
    · obtain ⟨hunit2, e2, he2, hkept2⟩ := unitReport_counted code d.dispatches hunit he1 nofun
      refine ⟨_, e2, hunit2, he2, hkept1.trans hkept2, .inr ⟨hst, ?_⟩⟩
      rw [reported_closing (.inr rfl), takeReport_withState _ _ u hst, hnow]

/-- What a report with dispatches moves in a ride record, but for its state. -/
theorem takeReport_fields (code n : Nat) (u : RideUnit) :
    (u.takeReport code (some n)).config = u.config ∧ (u.takeReport code (some n)).codeLevel = u.codeLevel ∧
    (u.takeReport code (some n)).stall = (if 0 < n then 0 else u.stall) ∧
    (u.takeReport code (some n)).testMinutes = u.testMinutes ∧
    (u.takeReport code (some n)).testDispatches =
      (if u.state.isTesting then min 255 (u.testDispatches + n) else u.testDispatches) ∧
    (128 ≤ code → (u.takeReport code (some n)).clear = 0 ∧ (u.takeReport code (some n)).fault = u.fault) ∧
    (code < 128 → (u.takeReport code (some n)).fault = 0 ∧ (u.takeReport code (some n)).clear = u.clear) := by
  simp only [RideUnit.takeReport, RideUnit.takeCode, RideUnit.takeDispatches, faultCode, decide_eq_true_eq, saturate_eq_min]
  by_cases hc : 128 ≤ code
  · simp [hc]
  · simp [hc]

/-- What a report with dispatches moves in a ride record. -/
theorem reported_fields (code n : Nat) (now : Option Nat) (u : RideUnit) :
    (u.reported code n now).config = u.config ∧ (u.reported code n now).codeLevel = u.codeLevel ∧
    (0 < n → (u.reported code n now).stall = 0) ∧
    (0 < n → u.state = .held .stall → (u.reported code n now).state = .opened) ∧
    (u.state.isTesting = true → (u.reported code n now).testDispatches = min 255 (u.testDispatches + n) ∧
      (u.reported code n now).state =
        (if u.config.testDispatches ≤ (u.reported code n now).testDispatches ∧ u.config.testMinutes ≤ u.testMinutes then
          .opened
        else u.state)) ∧
    (u.state.isTesting = false → (u.reported code n now).testDispatches = u.testDispatches) ∧
    (u.state.isTesting = false → u.state ≠ .closing → ¬(u.state = .held .stall ∧ 0 < n) →
      (u.reported code n now).state = u.state) ∧
    (u.reported code n now).testMinutes = u.testMinutes ∧
    (128 ≤ code → (u.reported code n now).clear = 0 ∧ (u.reported code n now).fault = u.fault) ∧
    (code < 128 → (u.reported code n now).fault = 0 ∧ (u.reported code n now).clear = u.clear) := by
  obtain ⟨hconfig, hlevel, hstall, hminutes, htests, hfault, hclear⟩ := takeReport_fields code n u
  have hstate := takeReport_state code (some n) u
  have hdone := testDone_iff (u.takeReport code (some n))
  rw [hstate, hconfig, hminutes] at hdone
  unfold RideUnit.reported
  split
  next hopen =>
    refine ⟨hconfig, hlevel, fun _ => rfl, fun _ _ => rfl, fun ht => ⟨by simpa [ht] using htests, ?_⟩,
      fun ht => by simpa [ht] using htests, fun ht _ hnot => ?_, hminutes, hfault, hclear⟩
    · rcases hopen with ⟨-, hst⟩ | hopen
      · rw [isTesting_stalled ht] at hst
        cases hst
      · exact (if_pos (hdone.mp hopen).2).symm
    · rcases hopen with ⟨hn, hst⟩ | hopen
      · exact absurd ⟨(stalled_iff _).mp hst, hn⟩ hnot
      · rw [(hdone.mp hopen).1] at ht
        cases ht
  next hopen =>
    refine ⟨hconfig, hlevel, fun hn => hstall.trans (if_pos hn), fun hn hst => ?_,
      fun ht => ⟨by simpa [ht] using htests, ?_⟩, fun ht => by simpa [ht] using htests, fun _ _ _ => hstate, hminutes,
      hfault, hclear⟩
    · exact absurd (.inl ⟨hn, (stalled_iff _).mpr hst⟩) hopen
    · rw [hstate, if_neg fun h => hopen (.inr (hdone.mpr ⟨ht, h⟩))]

theorem delta_spec (now base : Nat) (hb : base < 65536) :
    ((delta now base : Nat) : Int) = ((now : Int) - base) % 65536 := by
  unfold delta
  omega

/-- Settles O52: a delta report moves the queue and the accumulators, and its dispatches end a stall and count for a test. -/
theorem deltaReportCounts : Obligations.DeltaReportCounts := by
  refine ⟨fun s r address got bytes rep f u e d hline hlong hgood hf hu he hbase hlink hclose hd hp => ?_,
    fun now base h1 h2 h3 h4 => ⟨⟨delta_spec _ _ h1, delta_spec _ _ h2, delta_spec _ _ h3, delta_spec _ _ h4⟩,
      fun n hn => ?_⟩⟩
  · let s0 : State := { s with poller := { s.poller with line := .idle } }
    obtain ⟨x, heq, hxu, hxe, -, hxt, -, -, -, -⟩ := takeGoodReply_eq (rep := rep) (s := s0) hf
    rw [hlink, replyKind_counted hbase (hd ▸ hp), ← hd] at heq
    have hxclose : u.state.isTesting = true → x.time.closePassed = false := by
      rw [hxt]
      exact hclose
    obtain ⟨u', e', hunit, hest, hkept, hu'⟩ := handOver_counted (code := rep.code) (d := d) (hxu ▸ hu) (hxe ▸ he) hxclose
    obtain ⟨hconfig, hlevel, hstall, hminutes, htests, hfault, hclear⟩ := takeReport_fields rep.code d.dispatches u
    refine ⟨_, u', e', exec_goodReply hline hlong hgood, by rw [heq]; exact hest, ?_, ?_, ?_, hkept.s, hkept.sr,
      by rw [heq]; exact hunit, ?_⟩
    · rw [hkept.q]
      simp only [Estimator.takeCounts, decide_eq_true_eq, saturate_eq_min]
      rfl
    · rw [hkept.m]
      exact saturate_eq_min _ _
    · rw [hkept.mr]
      exact saturate_eq_min _ _
    · rcases hu' with rfl | ⟨hst, rfl⟩
      · exact reported_fields rep.code d.dispatches x.clockNow u
      · refine ⟨hconfig, hlevel, fun h => hstall.trans (if_pos h), fun _ h => ?_, fun h => ?_, fun h => ?_, fun _ h => ?_,
          hminutes, hfault, hclear⟩
        · rw [hst] at h
          cases h
        · rw [hst] at h
          cases h
        · simpa [h] using htests
        · exact absurd hst h
  · unfold delta
    omega

end Sys2Proof.Machine
end

section
/-! The minute of an estimator and the wait it publishes: O58. -/

namespace Sys2Proof.Machine

open Sys2Proof.Safety

/-! ### The candidate (R74) and the hysteresis (R75) -/

theorem candidate_spec (p : Params) (wt : Nat) (hstep : 0 < p.step) :
    (p.postMax ≤ wt → candidate p wt = { value := p.postMax, plus := true }) ∧
    (wt < p.postMax → (candidate p wt).plus = false ∧ p.step ∣ (candidate p wt).value ∧
      wt ≤ (candidate p wt).value ∧ (candidate p wt).value < wt + p.step) := by
  refine ⟨fun h => if_pos h, fun h => ?_⟩
  have hval : candidate p wt = { value := ceilDiv wt p.step * p.step, plus := false } := if_neg (Nat.not_le.mpr h)
  rw [hval]
  have hmod := Nat.mod_lt (wt + p.step - 1) hstep
  have hdiv := Nat.div_add_mod (wt + p.step - 1) p.step
  have hceil : ceilDiv wt p.step * p.step = p.step * ((wt + p.step - 1) / p.step) := by
    rcases Nat.eq_zero_or_pos wt with rfl | hpos
    · have hzero : (0 + p.step - 1) / p.step = 0 := Nat.div_eq_of_lt (by omega)
      rw [hzero]
      simp [ceilDiv, hstep]
    · rw [ceilDiv_eq wt p.step hpos, Nat.mul_comm]
  refine ⟨rfl, ⟨_, by rw [hceil]⟩, ?_, ?_⟩ <;> dsimp only <;> omega

theorem hysteresisPasses_iff (p : Params) (old new : Wait) (oldWr newWr : Nat) :
    hysteresisPasses p old new oldWr newWr = true ↔
      p.hyst ≤ distance new.value old.value ∨ new.plus ≠ old.plus ∨ ¬(newWr = 999 ↔ oldWr = 999) := by
  simp only [hysteresisPasses, Bool.or_eq_true, decide_eq_true_eq, or_assoc, bne_iff_ne, ne_eq, decide_eq_decide]
  rfl

/-! ### What a wait that is set does to the boards and the notices (R79, R80) -/

/-- A change of wait that calls for a JUMP notice. -/
def Jumps (p : Params) (old w : Option Wait) : Prop :=
  ∃ a b, old = some a ∧ w = some b ∧ 0 < p.jump ∧ p.jump ≤ distance b.value a.value

theorem distance_self (v : Nat) : distance v v = 0 := by
  simp [distance]

theorem not_jumps_self (p : Params) (w : Option Wait) : ¬Jumps p w w := by
  rintro ⟨a, b, ha, hb, hpos, hle⟩
  obtain rfl := Option.some.inj (ha.symm.trans hb)
  rw [distance_self] at hle
  omega

/-- The published wait of ride `r` goes from `old` to `w`: its lines blink if it changes, and a JUMP is told. -/
structure WaitOutcome (r : Nat) (old w : Option Wait) (s t : State) : Prop where
  time : t.time = s.time
  blinks : w ≠ old → t.boards = (blinkRide r s).boards
  still : w = old → t.boards = s.boards
  jumps : Jumps s.time.params old w → (t.slot ⟨.jump, r⟩).pending.isSome = true
  quiet : ¬Jumps s.time.params old w → t.notices = s.notices ∧ t.port = s.port

theorem WaitOutcome.refl (r : Nat) (w : Option Wait) {s t : State} (ht : t.time = s.time) (hb : t.boards = s.boards)
    (hn : t.notices = s.notices) (hp : t.port = s.port) : WaitOutcome r w w s t :=
  ⟨ht, fun h => absurd rfl h, fun _ => hb, fun h => absurd h (not_jumps_self _ w), fun _ => ⟨hn, hp⟩⟩

/-- Of two changes in a row one changes nothing. -/
theorem WaitOutcome.trans {r : Nat} {old mid w : Option Wait} {s t u : State} (h : WaitOutcome r old mid s t)
    (g : WaitOutcome r mid w t u) (hone : mid = old ∨ w = mid) : WaitOutcome r old w s u := by
  have htime := g.time.trans h.time
  rcases hone with rfl | rfl
  · have hboards := h.still rfl
    obtain ⟨hnotices, hport⟩ := h.quiet (not_jumps_self _ _)
    refine ⟨htime, fun hne => (g.blinks hne).trans (blinkRide_boards_congr r h.time hboards),
      fun heq => (g.still heq).trans hboards, fun hj => g.jumps (h.time ▸ hj), fun hj => ?_⟩
    obtain ⟨hn, hp⟩ := g.quiet (h.time ▸ hj)
    exact ⟨hn.trans hnotices, hp.trans hport⟩
  · have hboards := g.still rfl
    obtain ⟨hnotices, hport⟩ := g.quiet (not_jumps_self _ _)
    refine ⟨htime, fun hne => hboards.trans (h.blinks hne), fun heq => hboards.trans (h.still heq), fun hj => ?_, fun hj => ?_⟩
    · rw [slot_congr (congrArg (·.slots) hnotices)]
      exact h.jumps hj
    · obtain ⟨hn, hp⟩ := h.quiet hj
      exact ⟨hnotices.trans hn, hport.trans hp⟩

/-- The state with a wait set and the ride's lines blinking. -/
def State.withWait (r : Nat) (w : Option Wait) (s : State) : State :=
  blinkRide r (s.modEst r fun e => { e with wait := w })

theorem withWait_boards (r : Nat) (w : Option Wait) (s : State) : (s.withWait r w).boards = (blinkRide r s).boards :=
  blinkRide_boards_congr r rfl rfl

theorem setWait_present {r : Nat} {e : Estimator} {s : State} {old new : Wait} (he : s.ests.find r = some e)
    (hold : e.wait = some old) (hne : ¬some old = some new) : setWait r (some new) s =
      if 0 < s.time.params.jump ∧ s.time.params.jump ≤ distance new.value old.value then
        reportEvent .jump r new.value (s.withWait r (some new))
      else s.withWait r (some new) := by
  simp only [setWait, he, hold, if_neg hne, State.withWait]

theorem setWait_absent {r : Nat} {e : Estimator} {s : State} {w : Option Wait} (he : s.ests.find r = some e)
    (hne : ¬e.wait = w) (h : e.wait = none ∨ w = none) : setWait r w s = s.withWait r w := by
  rcases h with h | rfl
  · rw [h] at hne
    simp only [setWait, he, h, if_neg hne, State.withWait]
  · rw [setWait_none_eq r s e he, if_neg hne, State.withWait]

theorem setWait_outcome (r : Nat) (w : Option Wait) {e : Estimator} {s : State} (he : s.ests.find r = some e) :
    WaitOutcome r e.wait w s (setWait r w s) := by
  have htime : (s.withWait r w).time = s.time := rfl
  by_cases hw : e.wait = w
  · have hsame : setWait r w s = s := by simp only [setWait, he, if_pos hw]
    rw [hsame, hw]
    exact .refl r w rfl rfl rfl rfl
  · by_cases hnone : e.wait = none ∨ w = none
    · rw [setWait_absent he hw hnone]
      refine ⟨htime, fun _ => withWait_boards r w s, fun heq => absurd heq.symm hw, fun hj => ?_, fun _ => ⟨rfl, rfl⟩⟩
      obtain ⟨a, b, ha, hb, -⟩ := hj
      rcases hnone with h | h
      · rw [h] at ha
        cases ha
      · rw [h] at hb
        cases hb
    · obtain ⟨hold, hnew⟩ := not_or.mp hnone
      obtain ⟨old, hold⟩ := Option.ne_none_iff_exists'.mp hold
      obtain ⟨new, rfl⟩ := Option.ne_none_iff_exists'.mp hnew
      rw [hold] at hw ⊢
      rw [setWait_present he hold hw]
      have hjumps : Jumps s.time.params (some old) (some new) ↔
          0 < s.time.params.jump ∧ s.time.params.jump ≤ distance new.value old.value := by
        constructor
        · rintro ⟨a, b, ha, hb, h⟩
          obtain rfl := Option.some.inj ha
          obtain rfl := Option.some.inj hb
          exact h
        · exact fun h => ⟨old, new, rfl, rfl, h⟩
      split
      next h =>
        exact ⟨by simp [htime], fun _ => by simp [withWait_boards], fun heq => absurd heq.symm hw,
          fun _ => reportEvent_pending _ _ _ _, fun hj => absurd (hjumps.mpr h) hj⟩
      next h =>
        exact ⟨htime, fun _ => withWait_boards r _ s, fun heq => absurd heq.symm hw, fun hj => absurd (hjumps.mp hj) h,
          fun _ => ⟨rfl, rfl⟩⟩

theorem rideOnly_setWait (r : Nat) (w : Option Wait) (s : State) : RideOnly r s (setWait r w s) :=
  ⟨othersKept_of_eq r (by simp), fun j hj => by rw [setWait_ests, if_neg (Ne.symm hj)],
    bookHeard_of_rides (by simp) (passesKept_of_eq (by simp)), by simp, by simp, by constructor <;> simp⟩

/-! ### Step 5: the stale hold (R77) -/

/-- The estimate after step 5 of a minute tick. -/
def Estimator.staleStep (p : Params) (lost : Bool) (e : Estimator) : Estimator :=
  let grown := min 255 (e.staleTimer + 1)
  let now := lost && !e.stale && decide (p.staleHold ≤ grown)
  { e with staleTimer := if lost then grown else e.staleTimer, stale := e.stale || now, wait := if now then none else e.wait }

theorem staleMinute_effect {r : Nat} {f : FieldRecord} {e : Estimator} {s : State}
    (hf : s.poller.records.find r = some f) (he : s.ests.find r = some e) :
    (staleMinute r s).ests.find r = some (e.staleStep s.time.params (decide (f.link = .lost))) ∧
    RideOnly r s (staleMinute r s) ∧
    WaitOutcome r e.wait (e.staleStep s.time.params (decide (f.link = .lost))).wait s (staleMinute r s) := by
  simp only [staleMinute, hf]
  by_cases hlost : f.link = .lost
  · let s1 := s.modEst r fun e => { e with staleTimer := saturate 255 (e.staleTimer + 1) }
    let e1 : Estimator := { e with staleTimer := min 255 (e.staleTimer + 1) }
    have he1 : s1.ests.find r = some e1 := by simp [s1, e1, he, saturate_eq_min]
    have honly : RideOnly r s s1 := rideOnly_modEst r _ s
    have hquiet : WaitOutcome r e.wait e.wait s s1 := .refl r _ rfl rfl rfl rfl
    rw [if_pos hlost, staleCheck_eq r s1 f e1 hf he1]
    by_cases hnow : f.link = .lost ∧ e1.stale = false ∧ s1.time.params.staleHold ≤ e1.staleTimer
    · have hstep : e.staleStep s.time.params (decide (f.link = .lost)) = { e1 with stale := true, wait := none } := by
        have hfresh : e.stale = false := hnow.2.1
        have hheld : s.time.params.staleHold ≤ min 255 (e.staleTimer + 1) := hnow.2.2
        simp only [Estimator.staleStep, hlost, hfresh, hheld, e1]
        rfl
      have he2 : (s1.modEst r fun e => { e with stale := true }).ests.find r = some { e1 with stale := true } := by
        simp [he1]
      rw [if_pos hnow, hstep]
      refine ⟨?_, (honly.trans (rideOnly_modEst r _ s1)).trans (rideOnly_setWait r none _), ?_⟩
      · rw [setStale, setWait_ests, if_pos rfl, he2]
        rfl
      · have hstale : WaitOutcome r e.wait e.wait s (s1.modEst r fun e => { e with stale := true }) :=
          .refl r _ rfl rfl rfl rfl
        have hset := setWait_outcome r none he2
        exact hstale.trans hset (.inl rfl)
    · have hstep : e.staleStep s.time.params (decide (f.link = .lost)) = e1 := by
        have hnot : (!e.stale && decide (s.time.params.staleHold ≤ min 255 (e.staleTimer + 1))) = false := by
          simpa [hlost, e1, s1] using hnow
        simp only [Estimator.staleStep, hlost, decide_true, Bool.true_and, hnot, e1, Bool.or_false, Bool.false_eq_true,
          if_true, if_false]
      rw [if_neg hnow, hstep]
      exact ⟨he1, honly, hquiet⟩
  · have hstep : e.staleStep s.time.params (decide (f.link = .lost)) = e := by
      simp [Estimator.staleStep, hlost]
    rw [if_neg hlost, hstep]
    exact ⟨he, .refl r s, .refl r _ rfl rfl rfl rfl⟩

/-! ### Step 6: the wait published (R75, R76) -/

/-- The wait after step 6 of a minute tick. -/
def Estimator.published (p : Params) (u : RideUnit) (e : Estimator) : Option Wait :=
  if u.state.inService = true ∧ e.stale = false ∧ (e.wait = none ∨ e.renew = true ∨ ∃ old, e.wait = some old ∧
      (p.hyst ≤ distance (e.compute p u).2.value old.value ∨ (e.compute p u).2.plus ≠ old.plus ∨
        ¬((e.compute p u).1.wr = 999 ↔ e.wr = 999))) then some (e.compute p u).2
  else e.wait

theorem publishMinute_effect {r : Nat} {u : RideUnit} {e : Estimator} {s : State} (hu : s.units.find r = some u)
    (he : s.ests.find r = some e) :
    (publishMinute r s).ests.find r =
      some { (e.compute s.time.params u).1 with renew := false, wait := e.published s.time.params u } ∧
    RideOnly r s (publishMinute r s) ∧
    WaitOutcome r e.wait (e.published s.time.params u) s (publishMinute r s) := by
  let s1 := s.modEst r fun e => { (e.compute s.time.params u).1 with renew := false }
  let e1 : Estimator := { (e.compute s.time.params u).1 with renew := false }
  have he1 : s1.ests.find r = some e1 := by simp [s1, e1, he]
  have honly : RideOnly r s s1 := rideOnly_modEst r _ s
  have hquiet : WaitOutcome r e.wait e.wait s s1 := .refl r _ rfl rfl rfl rfl
  have hset : e.published s.time.params u = some (e.compute s.time.params u).2 →
      publishMinute r s = setWait r (some (e.compute s.time.params u).2) s1 →
      (publishMinute r s).ests.find r =
        some { (e.compute s.time.params u).1 with renew := false, wait := e.published s.time.params u } ∧
      RideOnly r s (publishMinute r s) ∧
      WaitOutcome r e.wait (e.published s.time.params u) s (publishMinute r s) := by
    intro hpub hrun
    rw [hrun, hpub]
    have hset := setWait_outcome r (some (e.compute s.time.params u).2) he1
    refine ⟨?_, honly.trans (rideOnly_setWait r _ s1), hquiet.trans hset (.inl rfl)⟩
    rw [setWait_ests, if_pos rfl, he1]
    rfl
  have hstill : e.published s.time.params u = e.wait → publishMinute r s = s1 →
      (publishMinute r s).ests.find r =
        some { (e.compute s.time.params u).1 with renew := false, wait := e.published s.time.params u } ∧
      RideOnly r s (publishMinute r s) ∧
      WaitOutcome r e.wait (e.published s.time.params u) s (publishMinute r s) := by
    intro hpub hrun
    rw [hrun, hpub]
    exact ⟨he1, honly, hquiet⟩
  by_cases hin : u.state.inService = true ∧ e.stale = false
  · have hopen : (!u.state.inService || e.stale) = false := by simp [hin]
    cases hw : e.wait with
    | none =>
      refine hw ▸ hset ?_ ?_
      · rw [Estimator.published, if_pos ⟨hin.1, hin.2, .inl hw⟩]
      · simp only [publishMinute, hu, he, hopen, Bool.false_eq_true, if_false, hw, s1]
    | some old =>
      have hiff := hysteresisPasses_iff s.time.params old (e.compute s.time.params u).2 e.wr
        (e.compute s.time.params u).1.wr
      by_cases hpass : e.renew = true ∨ hysteresisPasses s.time.params old (e.compute s.time.params u).2 e.wr
          (e.compute s.time.params u).1.wr = true
      · refine hw ▸ hset ?_ ?_
        · refine if_pos ⟨hin.1, hin.2, .inr (hpass.imp_right fun h => ⟨old, hw, hiff.mp h⟩)⟩
        · simp only [publishMinute, hu, he, hopen, Bool.false_eq_true, if_false, hw, Bool.or_eq_true, if_pos hpass, s1]
      · refine hw ▸ hstill ?_ ?_
        · refine if_neg ?_
          rintro ⟨-, -, h | h | ⟨a, ha, h⟩⟩
          · rw [hw] at h
            cases h
          · exact hpass (.inl h)
          · obtain rfl := Option.some.inj (hw.symm.trans ha)
            exact hpass (.inr (hiff.mpr h))
        · simp only [publishMinute, hu, he, hopen, Bool.false_eq_true, if_false, hw, Bool.or_eq_true, if_neg hpass, s1]
  · refine hstill (if_neg fun h => hin ⟨h.1, h.2.1⟩) ?_
    have hshut : (!u.state.inService || e.stale) = true := by
      simp only [Bool.or_eq_true, Bool.not_eq_true']
      by_contra h
      exact hin (by simpa [not_or] using h)
    simp only [publishMinute, hu, he, hshut, if_true, s1]

/-! ### The whole minute (R68) -/

theorem staleMinute_image (r : Nat) (s : State) (id : SlotId) :
    ((staleMinute r s).slot id).image = (s.slot id).image := by
  have hset : ∀ t : State, ((setStale r t).slot id).image = (t.slot id).image := fun t => setWait_image r none _ id
  have hcheck : ∀ t : State, ((staleCheck r t).slot id).image = (t.slot id).image := by
    intro t
    unfold staleCheck
    split
    · split
      · exact hset t
      · rfl
    · rfl
  unfold staleMinute
  split
  · split
    · exact hcheck _
    · rfl
  · rfl

theorem publishMinute_image (r : Nat) (s : State) (id : SlotId) :
    ((publishMinute r s).slot id).image = (s.slot id).image := by
  unfold publishMinute
  split
  · dsimp only
    split
    · rfl
    · split
      · exact setWait_image r _ _ id
      · split
        · exact setWait_image r _ _ id
        · rfl
  · rfl

/-- The estimate after steps 1 to 5 of a minute tick (R66 to R69, R73, R77). -/
def Estimator.tick (p : Params) (u : RideUnit) (link : Link) (forward : Bool) (e : Estimator) : Estimator :=
  (e.minute p u (decide (link = .up)) forward).staleStep p (decide (link = .lost))

section
variable {r : Nat} {u : RideUnit} {f : FieldRecord} {e : Estimator} {s : State}

/-- The steps of a minute tick that hold no report of a held minute. -/
theorem publishStale_effect (p : Params) (hp : s.time.params = p) (hu : s.units.find r = some u)
    (hf : s.poller.records.find r = some f) (he : s.ests.find r = some e) :
    (publishMinute r (staleMinute r s)).ests.find r = some
      { ((e.staleStep p (decide (f.link = .lost))).compute p u).1 with
        renew := false, wait := (e.staleStep p (decide (f.link = .lost))).published p u } ∧
    RideOnly r s (publishMinute r (staleMinute r s)) ∧
    (publishMinute r (staleMinute r s)).units = s.units ∧ (publishMinute r (staleMinute r s)).book = s.book ∧
    WaitOutcome r e.wait ((e.staleStep p (decide (f.link = .lost))).published p u) s
      (publishMinute r (staleMinute r s)) := by
  subst hp
  obtain ⟨he1, honly1, hout1⟩ := staleMinute_effect hf he
  have hu1 : (staleMinute r s).units.find r = some u := by simp [hu]
  obtain ⟨he2, honly2, hout2⟩ := publishMinute_effect hu1 he1
  rw [honly1.time] at he2 hout2
  refine ⟨he2, honly1.trans honly2, by simp, by simp, hout1.trans hout2 ?_⟩
  set m := e.staleStep s.time.params (decide (f.link = .lost)) with hm
  by_cases hnow : (decide (f.link = .lost) && !e.stale &&
      decide (s.time.params.staleHold ≤ min 255 (e.staleTimer + 1))) = true
  · have hstale : m.stale = true := by
      rw [hm]
      simp only [Estimator.staleStep, hnow, Bool.or_true]
    exact .inr (if_neg fun h => by simp [hstale] at h)
  · refine .inl ?_
    rw [hm]
    simp only [Estimator.staleStep]
    exact if_neg hnow

end

theorem heard_down (p : Params) (u : Option RideUnit) (c : DownCause) (e : Estimator) :
    e.heard p u (.down c) = { e with eligible := false, wait := none } := by
  simp [Estimator.heard, Estimator.hears, RideState.inService, RideState.isHeld]

theorem enterState_down_ests {r : Nat} {u : RideUnit} {e : Estimator} {s : State} (c : DownCause)
    (hu : s.units.find r = some u) (he : s.ests.find r = some e) :
    (enterState r (.down c) s).ests.find r = some { e with eligible := false, wait := none } := by
  rw [enterState, if_neg (by simp), changeState_ests_find _ hu, if_pos rfl, he, Option.map_some, heard_down]

theorem enterState_down_boards {r : Nat} {u : RideUnit} {s : State} (c : DownCause) (hu : s.units.find r = some u) :
    (enterState r (.down c) s).boards = (blinkRide r s).boards := by
  rw [enterState, if_neg (by simp), changeState_boards _ hu]

theorem takeHeldMinute_eq {r : Nat} {u : RideUnit} {e : Estimator} {s : State} (hu : s.units.find r = some u)
    (he : s.ests.find r = some e) : takeHeldMinute r s =
      if u.state.isHeld = true ∧ u.config.auto = true ∧ u.config.downAfter ≤ e.heldMin then
        enterState r (.down .heldTooLong) s
      else s := by
  simp only [takeHeldMinute, hu, he]

/-- The two takings of a minute are one in two orders: the held minute is told before the last steps or after them. -/
theorem take_estimator {d : Delivery} {k : Taking} {r : Nat} {s : State} {u : RideUnit} (hk : plain k = .estimator r)
    (hu : s.units.find r = some u) : take d s k =
      let s1 := s.modEst r (Estimator.minute s.time.params u (s.linkUp r) d.forward)
      if k = .estimator r then
        publishMinute r (staleMinute r (if u.state.isHeld then takeHeldMinute r s1 else s1))
      else if u.state.isHeld then takeHeldMinute r (publishMinute r (staleMinute r s1))
      else publishMinute r (staleMinute r s1) := by
  cases k <;> simp only [plain, reduceCtorEq, Taking.estimator.injEq] at hk
  · subst hk
    simp [take, estimatorMinute, hu]
  · subst hk
    simp [take, estimatorMinute, hu]

theorem staleStep_down (p : Params) (lost : Bool) (e : Estimator) :
    ({ e with eligible := false, wait := none } : Estimator).staleStep p lost =
      { e.staleStep p lost with eligible := false, wait := none } := by
  simp [Estimator.staleStep]

/-- A ride out of service publishes nothing. -/
theorem published_out (p : Params) {u : RideUnit} (h : u.state.inService = false) (e : Estimator) :
    e.published p u = e.wait := if_neg fun hin => by simp [h] at hin

section
variable {d : Delivery} {k : Taking} {r : Nat} {s : State} {u : RideUnit} {f : FieldRecord} {e : Estimator}
  (hk : plain k = .estimator r) (hu : s.units.find r = some u) (hf : s.poller.records.find r = some f)
  (he : s.ests.find r = some e)

/-- The state after steps 1 to 4 of a minute tick. -/
def minuteStart (r : Nat) (u : RideUnit) (link : Link) (forward : Bool) (s : State) : State :=
  s.modEst r (Estimator.minute s.time.params u (decide (link = .up)) forward)

include hk hu hf in
theorem take_estimator_eq : take d s k =
    if k = .estimator r then
      publishMinute r (staleMinute r
        (if u.state.isHeld then takeHeldMinute r (minuteStart r u f.link d.forward s)
        else minuteStart r u f.link d.forward s))
    else if u.state.isHeld then takeHeldMinute r (publishMinute r (staleMinute r (minuteStart r u f.link d.forward s)))
    else publishMinute r (staleMinute r (minuteStart r u f.link d.forward s)) := by
  have hlink : s.linkUp r = decide (f.link = .up) := by simp [State.linkUp, hf]
  rw [take_estimator hk hu, hlink]
  rfl

theorem minuteStart_find (link : Link) (forward : Bool) (he : s.ests.find r = some e) :
    (minuteStart r u link forward s).ests.find r =
      some (e.minute s.time.params u (decide (link = .up)) forward) := by
  simp [minuteStart, he]

include hk hu hf he in
/-- A minute that takes no held ride down publishes as it computes. -/
theorem take_estimator_published
    (hshort : u.state.isHeld = true → u.config.auto = true →
      (e.tick s.time.params u f.link d.forward).heldMin < u.config.downAfter) :
    (take d s k).ests.find r = some
      { ((e.tick s.time.params u f.link d.forward).compute s.time.params u).1 with
        renew := false, wait := (e.tick s.time.params u f.link d.forward).published s.time.params u } ∧
    RideOnly r s (take d s k) ∧ (take d s k).units = s.units ∧ (take d s k).book = s.book ∧
    WaitOutcome r e.wait ((e.tick s.time.params u f.link d.forward).published s.time.params u) s (take d s k) := by
  let s1 := minuteStart r u f.link d.forward s
  have he1 : s1.ests.find r = some (e.minute s.time.params u (decide (f.link = .up)) d.forward) :=
    minuteStart_find f.link d.forward he
  have hu1 : s1.units.find r = some u := hu
  obtain ⟨hest, honly, hunits, hbook, hout⟩ := publishStale_effect (s := s1) s.time.params rfl hu1 hf he1
  have hearly : takeHeldMinute r s1 = s1 := by
    rw [takeHeldMinute_eq hu1 he1, if_neg fun h => Nat.not_lt.mpr h.2.2 (hshort h.1 h.2.1)]
  have hlate : takeHeldMinute r (publishMinute r (staleMinute r s1)) = publishMinute r (staleMinute r s1) := by
    rw [takeHeldMinute_eq (hunits ▸ hu1) hest, if_neg fun h => Nat.not_lt.mpr h.2.2 (hshort h.1 h.2.1)]
  have hrun : take d s k = publishMinute r (staleMinute r s1) := by
    rw [take_estimator_eq hk hu hf, hearly, hlate, ite_self, ite_self, ite_self]
  have hstart : WaitOutcome r e.wait e.wait s s1 := .refl r _ rfl rfl rfl rfl
  rw [hrun]
  exact ⟨hest, (rideOnly_modEst r _ s).trans honly, hunits, hbook, hstart.trans hout (.inl rfl)⟩

include hk hu hf he in
/-- A minute that takes a held ride down makes its wait absent, whichever of the two steps comes first. -/
theorem take_estimator_down
    (hdown : u.state.isHeld = true ∧ u.config.auto = true ∧
      u.config.downAfter ≤ (e.tick s.time.params u f.link d.forward).heldMin) :
    (take d s k).units.find r = some { u with state := .down .heldTooLong, since := s.clockNow } ∧
    (take d s k).ests.find r = some
      { e.tick s.time.params u f.link d.forward with
        wr := rawWait (e.tick s.time.params u f.link d.forward).q (e.tick s.time.params u f.link d.forward).s
        wt := min 999 (rawWait (e.tick s.time.params u f.link d.forward).q (e.tick s.time.params u f.link d.forward).s +
          u.config.walk +
          if k = .estimator r then 0 else (e.tick s.time.params u f.link d.forward).heldMin)
        eligible := false, renew := false, wait := none } ∧
    (u.state.stalled = true → ((take d s k).slot ⟨.stall, r⟩).image = false) ∧
    (take d s k).boards = (blinkRide r s).boards ∧ RideOnly r s (take d s k) := by
  let s1 := minuteStart r u f.link d.forward s
  have he1 : s1.ests.find r = some (e.minute s.time.params u (decide (f.link = .up)) d.forward) :=
    minuteStart_find f.link d.forward he
  have hu1 : s1.units.find r = some u := hu
  have honly1 : RideOnly r s s1 := rideOnly_modEst r _ s
  by_cases hfirst : k = .estimator r
  · let s2 := enterState r (.down .heldTooLong) s1
    have hrun : take d s k = publishMinute r (staleMinute r s2) := by
      rw [take_estimator_eq hk hu hf, if_pos hfirst, if_pos hdown.1, takeHeldMinute_eq hu1 he1]
      exact congrArg (fun x => publishMinute r (staleMinute r x)) (if_pos hdown)
    have hu2 : s2.units.find r = some { u with state := .down .heldTooLong, since := s.clockNow } := by
      have h := enterState_units (.down .heldTooLong) hu1 he1
      rw [entered_down] at h
      exact h
    have he2 := enterState_down_ests .heldTooLong hu1 he1
    have honly2 := rideOnly_enterState r (.down .heldTooLong) s1
    have hf2 : s2.poller.records.find r = some f := by
      rw [honly2.poller]
      exact hf
    obtain ⟨hest, honly3, hunits, -, hout⟩ := publishStale_effect (s := s2) s.time.params (by rw [honly2.time]; rfl) hu2 hf2 he2
    rw [staleStep_down, published_out _ (u := { u with state := .down .heldTooLong, since := s.clockNow }) rfl] at hest hout
    have hboards : (publishMinute r (staleMinute r s2)).boards = (blinkRide r s).boards :=
      (hout.still rfl).trans ((enterState_down_boards .heldTooLong hu1).trans (blinkRide_boards_congr r rfl rfl))
    rw [hrun, if_pos hfirst]
    refine ⟨hunits ▸ hu2, ?_, fun hst => ?_, hboards, (honly1.trans honly2).trans honly3⟩
    · rw [hest]
      simp only [Estimator.compute, targetWait, saturate_eq_min, RideState.isHeld]
      rfl
    · rw [publishMinute_image, staleMinute_image, enterState_image _ hu1 _ (by simp) (by simp), if_pos ⟨rfl, by rw [hst]; decide⟩]
      rfl
  · let s2 := publishMinute r (staleMinute r s1)
    obtain ⟨hest, honly2, hunits, -, hout⟩ := publishStale_effect (s := s1) s.time.params rfl hu1 hf he1
    have hu2 : s2.units.find r = some u := hunits ▸ hu1
    have hrun : take d s k = enterState r (.down .heldTooLong) s2 := by
      rw [take_estimator_eq hk hu hf, if_neg hfirst, if_pos hdown.1, takeHeldMinute_eq hu2 hest]
      exact if_pos hdown
    have hboards : (blinkRide r s2).boards = (blinkRide r s).boards := by
      have hstart : (blinkRide r s1).boards = (blinkRide r s).boards := blinkRide_boards_congr r rfl rfl
      by_cases hsame : (e.tick s.time.params u f.link d.forward).published s.time.params u = e.wait
      · exact (blinkRide_boards_congr r hout.time (hout.still hsame)).trans hstart
      · exact (blinkRide_idem r hout.time (hout.blinks hsame)).trans hstart
    have henter := enterState_units (.down .heldTooLong) hu2 hest
    have hclock : s2.clockNow = s.clockNow := by rw [State.clockNow, State.clockNow, hout.time]; rfl
    rw [entered_down, hclock] at henter
    rw [hrun, if_neg hfirst]
    refine ⟨henter, ?_, fun hst => ?_, (enterState_down_boards .heldTooLong hu2).trans hboards,
      (honly1.trans honly2).trans (rideOnly_enterState r _ s2)⟩
    · rw [enterState_down_ests .heldTooLong hu2 hest]
      simp only [Estimator.compute, targetWait, saturate_eq_min, hdown.1]
      rfl
    · rw [enterState_image _ hu2 _ (by simp) (by simp), if_pos ⟨rfl, by rw [hst]; decide⟩]
      rfl

end

theorem published_cases (p : Params) (u : RideUnit) (e : Estimator) :
    e.published p u = some (e.compute p u).2 ∨ e.published p u = e.wait := by
  unfold Estimator.published
  split
  · exact .inl rfl
  · exact .inr rfl

theorem hears_service {st : RideState} (h : st.inService = true) (e : Estimator) : e.hears st =
    { e with
      heldMin := if st.isHeld then 0 else e.heldMin
      eligible := if st.isHeld then false else e.eligible } := by
  cases st <;> simp [Estimator.hears, RideState.isHeld, RideState.inService] at h ⊢

theorem hears_out {st : RideState} (h : st.inService = false) (e : Estimator) : e.hears st =
    { e with q := if st = .closed then 0 else e.q, eligible := false } := by
  cases st <;> simp [Estimator.hears, RideState.isHeld, RideState.inService] at h ⊢

/-- Settles O58: the minute counts, samples, computes and publishes; a ride held too long goes down. -/
theorem waitPublished : Obligations.WaitPublished := by
  refine ⟨candidate_spec, ?_, fun r s => ⟨rfl, Table.keys_each _ _, fun a b hb => ?_⟩,
    fun r new s u hu => changeState_ests new hu, fun r s u e h wt hu he hh hwt => ⟨fun hin => ?_, fun hout => ?_⟩⟩
  · intro d k r s t u f e m new wr wt grown now hk hu hf he hgrown hnow hm ht hwr hwt hnew
    have hm : m = e.tick s.time.params u f.link d.forward := by
      rw [hm, hnow, hgrown]
      have hcond : decide (f.link = .lost ∧ e.stale = false ∧ s.time.params.staleHold ≤ min 255 (e.staleTimer + 1)) =
          (decide (f.link = .lost) && !e.stale && decide (s.time.params.staleHold ≤ min 255 (e.staleTimer + 1))) := by
        cases e.stale <;> simp [Bool.decide_and]
      rw [hcond]
      simp only [Estimator.tick, Estimator.staleStep, decide_eq_true_eq]
      rfl
    have hcompute : m.compute s.time.params u = ({ m with wr := wr, wt := wt }, new) := by
      simp only [Estimator.compute, targetWait, saturate_eq_min, hwr, hwt, hnew]
      rfl
    have hrenew : m.renew = e.renew := by rw [hm]; rfl
    have hwr0 : m.wr = e.wr := by rw [hm]; rfl
    have hwait : m.wait = none ∨ m.wait = e.wait := by
      rw [hm]
      simp only [Estimator.tick, Estimator.staleStep]
      split
      · exact .inl rfl
      · exact .inr rfl
    refine ⟨fun hshort => ?_, fun c hst hauto hlong => ?_⟩
    · rw [hm] at hshort
      obtain ⟨hest, honly, hunits, hbook, hout⟩ := take_estimator_published hk hu hf he hshort
      rw [← hm, ← ht] at hest hout
      rw [← ht] at honly hunits hbook
      rw [hcompute] at hest
      refine ⟨m.published s.time.params u, hest, ?_, hout.blinks, hout.still, fun hj => ?_, fun hj => ?_, honly.ests, hunits,
        honly.poller, hbook, honly.time⟩
      · rw [Estimator.published, hcompute, hrenew, hwr0]
      · obtain ⟨old, hold, hnewest, hpos, hle⟩ := hj
        exact hout.jumps ⟨old, new, hold, hnewest, hpos, hle⟩
      · refine hout.quiet fun hjump => ?_
        rcases published_cases s.time.params u m with hpub | hpub
        · obtain ⟨a, b, ha, hb, hpos, hle⟩ := hjump
          rw [hcompute] at hpub
          obtain rfl := Option.some.inj (hb.symm.trans hpub)
          exact hj ⟨a, ha, hpub, hpos, hle⟩
        · rcases hwait with hnone | hsame
          · rw [hpub, hnone] at hjump
            obtain ⟨a, b, -, hb, -⟩ := hjump
            cases hb
          · rw [hpub, hsame] at hjump
            exact not_jumps_self _ _ hjump
    · have hheld : u.state.isHeld = true := (isHeld_iff _).mpr ⟨c, hst⟩
      rw [hm] at hlong
      obtain ⟨hunit, hest, himage, hboards, honly⟩ := take_estimator_down hk hu hf he ⟨hheld, hauto, hlong⟩
      rw [← hm] at hest
      rw [ht]
      refine ⟨hunit, ?_, fun hc => himage ?_, hboards, honly.units, honly.ests, honly.time, honly.poller,
        honly.book.passes, honly.port⟩
      · rw [hest, hwt, hwr, hheld]
        split <;> rfl
      · rw [hst, hc]
        rfl
  · simp only [blinkRide, Table.find_each, hb]
    rfl
  · rw [estimatorHears_find, if_pos rfl, he, hu, Option.map_some, hwt, hh, Estimator.heard, if_pos hin,
      hears_service hin]
    cases e.stale <;> cases hheld : u.state.isHeld <;>
      simp [Estimator.compute, targetWait, saturate_eq_min, hheld, Config.waitMax]
  · rw [estimatorHears_find, if_pos rfl, he, hu, Option.map_some, Estimator.heard, if_neg (by simp [hout]),
      hears_out hout]

end Sys2Proof.Machine
end

section
/-! What a line frame carries, and how the board line goes on: O55. -/

namespace Sys2Proof.Machine

open Sys2Proof.Safety

/-! ### Numbers in a text (R147, R148, R150) -/

theorem chr_digitChar (n : Nat) : chr (Nat.digitChar (n % 10)) = digit n := by
  have hlt : n % 10 < 10 := Nat.mod_lt n (by omega)
  unfold digit
  generalize n % 10 = d at hlt ⊢
  interval_cases d <;> rfl

theorem txt_append (a b : List Char) : txt (a ++ b) = txt a ++ txt b := List.map_append

theorem toDigits_digit {n : Nat} (h : n < 10) : txt (Nat.toDigits 10 n) = [digit n] := by
  rw [Nat.toDigits_of_lt_base h, ← chr_digitChar n, Nat.mod_eq_of_lt h]
  rfl

theorem toDigits_step {n : Nat} (h : 10 ≤ n) :
    txt (Nat.toDigits 10 n) = txt (Nat.toDigits 10 (n / 10)) ++ [digit n] := by
  rw [Nat.toDigits_of_base_le (by decide) h, txt_append, ← chr_digitChar n]
  rfl

theorem toDigits_two {n : Nat} (hlow : 10 ≤ n) (hhigh : n < 100) :
    txt (Nat.toDigits 10 n) = [digit (n / 10), digit n] := by
  rw [toDigits_step hlow, toDigits_digit (by omega)]
  rfl

theorem decimal_eq {n : Nat} (h : n < 1000) : decimal n = txt (Nat.toDigits 10 n) := by
  unfold decimal
  split
  next hone => exact (toDigits_digit hone).symm
  next hone =>
    split
    next htwo => exact (toDigits_two (by omega) htwo).symm
    next htwo =>
      rw [toDigits_step (by omega), toDigits_two (by omega) (by omega), Nat.div_div_eq_div_mul]
      rfl

theorem twoDigits_eq {n : Nat} (h : n < 100) :
    twoDigits n = (if n < 10 then txt ['0'] else []) ++ txt (Nat.toDigits 10 n) := by
  unfold twoDigits
  split
  next hone =>
    rw [toDigits_digit hone, Nat.div_eq_of_lt hone]
    rfl
  next hone => exact (toDigits_two (by omega) h).symm

/-! ### The party-1 quote of a line (R118, R148) -/

section

variable {s : State} {r : Nat} {u : RideUnit} {e : Estimator}

theorem quote_eq (hd : s.time.day = .day) (hu : s.units.find r = some u) (he : s.ests.find r = some e)
    (hst : reserveRefusal u.state = none) {w : Wait} (hw : e.wait = some w) :
    (∀ i x, s.searchWindow r (s.target w) 1 = some (i, x) → s.quote r = ⟨.done, some x⟩) ∧
    (s.searchWindow r (s.target w) 1 = none → s.quote r = ⟨.soldOut, none⟩) := by
  have hday := (dayRefusal_none_iff _).mpr hd
  exact ⟨fun i x hs => by simp only [State.quote, hday, hu, he, hst, hw, hs],
    fun hs => by simp only [State.quote, hday, hu, he, hst, hw, hs]⟩

/-- A ride that takes no reservation, or has published no wait, has no line 3 (R148). -/
theorem returnLine_none (hd : s.time.day = .day) (hu : s.units.find r = some u) (he : s.ests.find r = some e)
    (h : ¬(u.state = .opened ∨ ∃ c, u.state = .held c) ∨ e.wait = none) : returnLine (s.quote r) = [] := by
  have hday := (dayRefusal_none_iff _).mpr hd
  cases hst : u.state with
  | opened | held c =>
    have hw : e.wait = none := h.resolve_left (fun hn => hn (by simp [hst]))
    simp only [State.quote, hday, hu, he, hst, hw, reserveRefusal, returnLine]
  | closed | testing c | closing | down c =>
    simp only [State.quote, hday, hu, he, hst, reserveRefusal, returnLine]

theorem returnLine_from (hd : s.time.day = .day) (hu : s.units.find r = some u) (he : s.ests.find r = some e)
    (hst : u.state = .opened ∨ ∃ c, u.state = .held c) {w : Wait} (hw : e.wait = some w) {i : Nat} {x : Window}
    (hl : LowestWindow (s.rideBook r).windows (s.target w) 1 i x) :
    returnLine (s.quote r) = txt ['R', 'E', 'T', 'U', 'R', 'N', ' ', 'F', 'R', 'O', 'M', ' '] ++ hhmm x.startMin := by
  rw [(quote_eq hd hu he ((reserveRefusal_none_iff _).mpr hst) hw).1 i x ((searchWindow_some_iff _ _ _ _ _ _).mpr hl)]
  rfl

theorem returnLine_full (hd : s.time.day = .day) (hu : s.units.find r = some u) (he : s.ests.find r = some e)
    (hst : u.state = .opened ∨ ∃ c, u.state = .held c) {w : Wait} (hw : e.wait = some w)
    (hnone : ∀ x ∈ (s.rideBook r).windows, ¬HasRoom (s.target w) 1 x) :
    returnLine (s.quote r) = txt ['R', 'E', 'T', 'U', 'R', 'N', ' ', 'F', 'U', 'L', 'L'] := by
  rw [(quote_eq hd hu he ((reserveRefusal_none_iff _).mpr hst) hw).2 ((searchWindow_none_iff _ _ _ _).mpr hnone)]
  rfl

end

theorem not_hasRoom_iff (t p : Nat) (x : Window) :
    ¬HasRoom t p x ↔ x.resolved = true ∨ x.endMin ≤ t ∨ x.cap - x.issued - x.hold < p := by
  simp only [HasRoom, not_and_or, Bool.not_eq_false, not_lt, not_le]

/-! ### The composition of a line (R146 to R151) -/

theorem composeLine_override {l : Line} {o : Override} (h : l.override = some o) (b : Board) (n : Nat) (s : State) :
    composeLine b n l s = ⟨o.text, none⟩ := by
  simp only [composeLine, h]

theorem composeLine_default {l : Line} (h : l.override = none) (b : Board) (n : Nat) {s : State}
    (hd : s.time.day ≠ .day) : composeLine b n l s = ⟨defaultText s.time.params b.kind n, none⟩ := by
  simp only [composeLine, h, if_neg hd]

theorem composeLine_ride {l : Line} (h : l.override = none) {b : Board} (n : Nat) {s : State}
    (hd : s.time.day = .day) {r : Nat} (hk : b.kind = .ride r) : composeLine b n l s = rideLine r n s := by
  simp only [composeLine, h, if_pos hd, hk]

theorem composeLine_hub {l : Line} (h : l.override = none) {b : Board} (n : Nat) {s : State}
    (hd : s.time.day = .day) {p q : Pane} (hk : b.kind = .hub p q) : composeLine b n l s = hubLine p q n s := by
  simp only [composeLine, h, if_pos hd, hk]

theorem waitOf_eq {s : State} {r : Nat} {e : Estimator} (he : s.ests.find r = some e) : s.waitOf r = e.wait := by
  simp only [State.waitOf, he, Option.bind_some]

theorem rideLine_eq {s : State} {r : Nat} {u : RideUnit} {e : Estimator} (hu : s.units.find r = some u)
    (he : s.ests.find r = some e) :
    rideLine r 1 s = ⟨u.config.fullName, some r⟩ ∧ rideLine r 2 s = ⟨waitLine u.state e.wait, some r⟩ ∧
      rideLine r 3 s = ⟨returnLine (s.quote r), some r⟩ := by
  refine ⟨?_, ?_, ?_⟩ <;> simp only [rideLine, hu, waitOf_eq he]

theorem paneRow_some_iff {p q pane : Pane} {n row : Nat} : paneRow p q n = some (pane, row) ↔
    (n ≤ p.rows ∧ pane = p ∧ row = n - 1) ∨ (p.rows < n ∧ n ≤ p.rows + q.rows ∧ pane = q ∧ row = n - 1 - p.rows) := by
  unfold paneRow
  split
  next hp => simp [hp, Nat.not_lt.mpr hp, eq_comm]
  next hp =>
    split
    next hq => simp [hp, hq, Nat.lt_of_not_le hp, eq_comm]
    next hq => simp [hp, hq]

theorem paneRow_none {p q : Pane} {n : Nat} (h : p.rows + q.rows < n) : paneRow p q n = none := by
  rw [paneRow, if_neg (by omega), if_neg (by omega)]

theorem rideAt_eq (units : Table RideUnit) (pane : Pane) (row : Nat) {list : List Nat} {count : Nat}
    (hlist : list = if pane.skipClosed then
      pane.list.filter (fun r => (units.find r).map (·.state) ≠ some .closed) else pane.list)
    (hcount : count = if list = [] then 1 else (list.length + pane.rows - 1) / pane.rows) :
    pane.rideAt units row = list[pane.page % count * pane.rows + row]? := by
  rw [← pane_effective_eq] at hlist
  rw [← pane_pages_eq] at hcount
  rw [hcount, hlist]
  rfl

theorem fittedName_eq (fit : Fit) (r : Nat) (c : RideConfig) : fittedName fit r c =
    if fit = .fullFirst ∧ c.fullName.length ≤ 13 then c.fullName else c.shortName.getD (twoDigits r) := by
  cases fit <;> simp [fittedName]

theorem hubRow_eq (fit : Fit) (r : Nat) (u : RideUnit) (w : Option Wait) {name field : Text}
    (hname : name = if fit = .fullFirst ∧ u.config.fullName.length ≤ 13 then u.config.fullName
      else u.config.shortName.getD (twoDigits r)) (hfield : field = waitField u.state w) :
    hubRow fit r u w = name ++ List.replicate (13 - name.length) 0x20#8 ++ [0x20#8] ++
      List.replicate (6 - field.length) 0x20#8 ++ field := by
  rw [← fittedName_eq] at hname
  rw [hname, hfield, hubRow, fillTo, leadTo, ← List.append_assoc]
  rfl

theorem hubLine_row {s : State} {p q pane : Pane} {n row : Nat} (h : paneRow p q n = some (pane, row)) :
    (pane.rideAt s.units row = none → hubLine p q n s = ⟨[], none⟩) ∧
    ∀ r u e, pane.rideAt s.units row = some r → s.units.find r = some u → s.ests.find r = some e →
      hubLine p q n s = ⟨hubRow pane.fit r u e.wait, some r⟩ :=
  ⟨fun hr => by simp only [hubLine, h, hr], fun r u e hr hu he => by simp only [hubLine, h, hr, hu, waitOf_eq he]⟩

/-! ### The line frame (R141, R142, R153) -/

theorem line?_eq {b : Board} {n : Nat} {l : Line} (hn : 1 ≤ n) (hl : b.lines[n - 1]? = some l) :
    b.line? n = some l := by
  rw [Board.line?, if_neg (by omega), hl]

theorem sendNextLine_eq {s : State} {a l a' n : Nat} (hidle : s.boards.line = .idle)
    (hpass : s.boards.pass = some (a, l)) (hnext : nextLine s.boards.table a l = some (a', n)) :
    sendNextLine s = sendLine a' n s := by
  simp only [sendNextLine, hidle, hpass, hnext]

/-- The state in which the line is composed and its frame is out. -/
def State.lineSent (s : State) (a n : Nat) (b : Board) (l : Line) : State :=
  let c := composeLine b n l s
  let s' := s.modBoard a fun b => b.modLine n (Line.compose c)
  { s' with boards := { s'.boards with
      line := .outstanding a n
      pass := some (a, n)
      sent := lineFrame a n (blinkByte (0 < l.blink) s.time.params.blinkDuty) (fillTo Config.lineWidth c.text) } }

theorem sendLine_eq {s : State} {a n : Nat} {b : Board} {l : Line} (hb : s.boards.table.find a = some b)
    (hl : b.line? n = some l) : sendLine a n s = s.lineSent a n b l := by
  simp only [sendLine, hb, hl]
  rfl

theorem lineSent_find {s : State} {a n : Nat} {b : Board} {l : Line} (hb : s.boards.table.find a = some b)
    (hn : 1 ≤ n) (hl : b.lines[n - 1]? = some l) : (s.lineSent a n b l).boards.table.find a =
      some { b with lines := b.lines.set (n - 1) (Line.compose (composeLine b n l s) l) } := by
  have hmod := modLine_eq b n (Line.compose (composeLine b n l s)) l hn hl
  rw [← hmod]
  simp [State.lineSent, State.modBoard, hb]

theorem lineSent_others (s : State) (a n : Nat) (b : Board) (l : Line) :
    OthersKept a s.boards.table (s.lineSent a n b l).boards.table := by
  intro j hj
  simp [State.lineSent, State.modBoard, Ne.symm hj]

theorem blinkByte_eq (blink duty : Nat) : blinkByte (0 < blink) duty = if 0 < blink then duty / 25 else 0 :=
  if_congr decide_eq_true_iff rfl rfl

/-- A line of a RIDE board in DAY, as the obligation says it. -/
theorem composeLine_rideDay {b : Board} {l : Line} {s : State} {r : Nat} {u : RideUnit} {e : Estimator}
    (ho : l.override = none) (hd : s.time.day = .day) (hk : b.kind = .ride r) (hu : s.units.find r = some u)
    (he : s.ests.find r = some e) :
    composeLine b 1 l s = ⟨u.config.fullName, some r⟩ ∧ composeLine b 2 l s = ⟨waitLine u.state e.wait, some r⟩ ∧
      composeLine b 3 l s = ⟨returnLine (s.quote r), some r⟩ := by
  obtain ⟨hone, htwo, hthree⟩ := rideLine_eq hu he
  simp only [composeLine_ride ho _ hd hk, hone, htwo, hthree, and_self]

/-- Settles O55: the frame is the line frame of the composed text; the composition by its cases; the texts by STATE; a
number by its digits. -/
theorem lineFrameSent : Obligations.LineFrameSent := by
  refine ⟨?frame, fun b n l s => ⟨fun o ho => composeLine_override ho b n s, ?default, ?ride, ?hub⟩, ?texts,
    fun n hn => decimal_eq hn, fun n hn => twoDigits_eq hn, fun _ => rfl⟩
  case frame =>
    intro s a l a' n b ln text hidle hpass hnext hb hn hl htext
    rw [← fillTo_twenty] at htext
    have hsent := (sendNextLine_eq hidle hpass hnext).trans (sendLine_eq hb (line?_eq hn hl))
    refine ⟨s.lineSent a' n b ln, exec_next rfl hsent, rfl, rfl, ⟨_, lineFrame_eq _ _ _ _ ?_, rfl⟩, ?_,
      lineSent_others s a' n b ln, rfl, rfl, rfl, rfl, rfl, rfl, rfl⟩
    · rw [← blinkByte_eq, htext]
    · rw [lineSent_find hb hn hl, htext]
      rfl
  case default =>
    intro ho hd
    rw [composeLine_default ho b n hd]
    unfold defaultText
    cases b.kind with
    | ride r => rcases n with _ | _ | _ | _ | n <;> rfl
    | hub p q => rcases n with _ | _ | n <;> rfl
  case ride =>
    intro r u e ho hd hk hu he
    obtain ⟨hone, htwo, hthree⟩ := composeLine_rideDay ho hd hk hu he
    refine ⟨fun hn => hn ▸ hone, fun hn => hn ▸ htwo, fun hn => ?_⟩
    subst hn
    rw [hthree]
    refine ⟨rfl, returnLine_none hd hu he, fun w m hst hw hm => ?_⟩
    obtain rfl : m = s.target w := hm
    refine ⟨fun i x hx hres hend hroom hlow => ?_, fun hfull => ?_⟩
    · exact returnLine_from hd hu he hst hw
        ⟨hx, ⟨hres, hend, hroom⟩, fun j y hj hy => (not_hasRoom_iff _ _ _).mpr (hlow j y hj hy)⟩
    · exact returnLine_full hd hu he hst hw fun x hx => (not_hasRoom_iff _ _ _).mpr (hfull x hx)
  case hub =>
    intro p q ho hd hk hn
    rw [composeLine_hub ho n hd hk]
    refine ⟨fun hout => by simp only [hubLine, paneRow_none hout], fun pane row list count hrow hlist hcount => ?_⟩
    obtain ⟨hblank, hshown⟩ := hubLine_row (s := s) (paneRow_some_iff.mpr hrow)
    rw [rideAt_eq s.units pane row hlist hcount] at hblank hshown
    refine ⟨hblank, fun r u e name field hr hu he hname hfield => ?_⟩
    rw [hshown r u e hr hu he, hubRow_eq pane.fit r u e.wait hname hfield]
  case texts =>
    intro st w
    cases st with
    | opened | held c =>
      refine ⟨fun _ => ⟨fun v hv => ?_, fun hv => ?_⟩, nofun, nofun, nofun, nofun⟩ <;> subst hv <;> exact ⟨rfl, rfl⟩
    | closed | testing c | closing | down c => simp [waitLine, waitField, RideState.isTesting, RideState.isDown]

end Sys2Proof.Machine
end

section
/-! The issue of a pass: O27. -/

namespace Sys2Proof.Machine

open Sys2Proof.Safety

/-! ### An answered request -/

/-- `t` is the state `u` its owner left, with the answer entered as the newest record. -/
structure AnsweredAs (rcd : Record) (u t : State) : Prop where
  eq : t = enterReply rcd u
  book : t.book = u.book
  time : t.time = u.time
  units : t.units = u.units
  ests : t.ests = u.ests
  poller : t.poller = u.poller
  boards : t.boards = u.boards
  notices : t.notices = u.notices
  replied : Replied rcd t
  port : PortKept u t

theorem answeredAs_enterReply (rcd : Record) (u : State) (h : u.port.waiting = []) :
    AnsweredAs rcd u (enterReply rcd u) :=
  ⟨rfl, by simp, by simp, by simp, by simp, by simp, by simp, by simp, replied_enterReply rcd u h,
    portKept_enterReply rcd (portKept_of_eq rfl)⟩

theorem AnsweredAs.rideBook {rcd : Record} {u t : State} (h : AnsweredAs rcd u t) (r : Nat) :
    t.rideBook r = u.rideBook r := rideBook_congr (congrArg (·.rides) h.book) r

theorem exec_answeredAs {c : Instr} {tag : Nat} {rq : Request} {s u : State} {body : ReplyBody}
    (hc : exec c s = .next (portStep tag rq s)) (hoff : Offered tag rq s)
    (hg : gateServe tag rq s.popInput = (u, some body)) (hw : u.port.waiting = []) :
    ∃ t, exec c s = .next t ∧ AnsweredAs (.reply tag (requestClass rq) body) u t :=
  ⟨_, exec_answered hc hoff hg, answeredAs_enterReply _ u hw⟩

/-! ### Record space and reclaiming (R106, R107, R114) -/

theorem full_iff (b : Book) : b.full = true ↔ 49152 ≤ b.passes.length := decide_eq_true_iff

theorem noSpace_iff (b : Book) :
    b.noSpace = true ↔ 16777216 ≤ b.serial ∨ (49152 ≤ b.passes.length ∧ b.retired = []) := by
  have hserial : decide (Config.serialEnd ≤ b.serial) = true ↔ 16777216 ≤ b.serial := decide_eq_true_iff
  simp only [Book.noSpace, Bool.or_eq_true, Bool.and_eq_true, hserial, full_iff, List.isEmpty_iff]

theorem reclaim_retired (b : Book) :
    b.reclaim.retired = if 49152 ≤ b.passes.length then b.retired.tail else b.retired := by
  unfold Book.reclaim
  rw [if_congr (full_iff b) rfl rfl]
  split
  · split
    next h => rw [h, List.tail_nil]
    next h => rw [h, List.tail_cons]
  · rfl

theorem reclaim_find (b : Book) (n : Nat) : b.reclaim.passes.find n =
    if 49152 ≤ b.passes.length ∧ b.retired.head? = some n then none else b.passes.find n := by
  unfold Book.reclaim
  rw [if_congr (full_iff b) rfl rfl]
  split
  next hfull =>
    split
    next h => simp [h]
    next h => simp [h, hfull]
  next hfull => simp [hfull]

theorem reclaim_rest (b : Book) : b.reclaim.serial = b.serial ∧ b.reclaim.accounts = b.accounts ∧
    b.reclaim.activeCount = b.activeCount := by
  unfold Book.reclaim
  split
  · split <;> exact ⟨rfl, rfl, rfl⟩
  · exact ⟨rfl, rfl, rfl⟩

/-! ### The issue in the book (R115) -/

/-- The windows of a ride once a party of `p` has pass `n` for window `i`. -/
def RideBook.withPass (i p n : Nat) (b : RideBook) : RideBook :=
  { b with windows := b.windows.modify i fun w => { w with issued := w.issued + p, passes := w.passes ++ [n] } }

/-- The state after the issue, the levels not yet judged. -/
def State.issued (s : State) (o : ReserveOps) (i : Nat) : State :=
  { s with book := (s.book.reclaim).issue s.minute o i }

theorem issuePass_eq (o : ReserveOps) (i : Nat) (s : State) :
    issuePass o i s = judgeBook (judgeSlots o.ride (s.issued o i)) := rfl

theorem issued_rideBook {s : State} {o : ReserveOps} {i : Nat} {w : Window}
    (hw : (s.rideBook o.ride).windows[i]? = some w) :
    (s.issued o i).rideBook o.ride = (s.rideBook o.ride).withPass i o.party s.book.serial := by
  have hb := find_of_window hw
  obtain ⟨hserial, -, -⟩ := reclaim_rest s.book
  have hfind : (s.issued o i).book.rides.find o.ride = some ((s.rideBook o.ride).withPass i o.party s.book.serial) := by
    simp [State.issued, Book.issue, reclaim_rides, hb, hserial, RideBook.withPass]
  exact rideBook_of_find hfind

theorem issued_others (s : State) (o : ReserveOps) (i : Nat) :
    OthersKept o.ride s.book.rides (s.issued o i).book.rides := fun j hj => by
  simp [State.issued, Book.issue, reclaim_rides, Ne.symm hj]

theorem issuePass_levels (o : ReserveOps) (i : Nat) (s : State) :
    LevelsOnly o.ride (s.issued o i) (issuePass o i s) := by
  rw [issuePass_eq]
  exact (judgeSlots_levels _ _).trans (judgeBook_levels _ _)

theorem issuePass_passes (o : ReserveOps) (i : Nat) (s : State) :
    (issuePass o i s).book.serial = s.book.serial + 1 ∧
    (issuePass o i s).book.activeCount = s.book.activeCount + 1 ∧
    (issuePass o i s).book.retired = s.book.reclaim.retired ∧
    (issuePass o i s).book.passes = s.book.reclaim.passes.put s.book.serial
      { ride := o.ride, window := i, account := o.token, party := o.party, remaining := o.party, state := .issued,
        issuedAt := s.minute, firstUse := none, flexAt := none, retiredAt := none } ∧
    (issuePass o i s).book.accounts =
      s.book.accounts.put o.token (Account.issued s.minute s.book.serial (s.book.accounts.find o.token)) := by
  obtain ⟨hserial, haccounts, hactive⟩ := reclaim_rest s.book
  refine ⟨?_, ?_, ?_, ?_, ?_⟩ <;> simp [issuePass_eq, State.issued, Book.issue, hserial, haccounts, hactive]

theorem issuePass_find (o : ReserveOps) (i : Nat) (s : State) :
    (issuePass o i s).book.passes.find s.book.serial = some
      { ride := o.ride, window := i, account := o.token, party := o.party, remaining := o.party, state := .issued,
        issuedAt := s.minute, firstUse := none, flexAt := none, retiredAt := none } ∧
    ∀ n, n ≠ s.book.serial → (issuePass o i s).book.passes.find n =
      if 49152 ≤ s.book.passes.length ∧ s.book.retired.head? = some n then none else s.book.passes.find n := by
  obtain ⟨-, -, -, hpasses, -⟩ := issuePass_passes o i s
  refine ⟨by rw [hpasses, Table.find_put, if_pos rfl], fun n hn => ?_⟩
  rw [hpasses, Table.find_put, if_neg (Ne.symm hn), reclaim_find]

theorem issuePass_keeps (o : ReserveOps) (i : Nat) (s : State) :
    (issuePass o i s).time = s.time ∧ (issuePass o i s).units = s.units ∧ (issuePass o i s).ests = s.ests ∧
    (issuePass o i s).poller = s.poller ∧ (issuePass o i s).boards = s.boards ∧ PortKept s (issuePass o i s) := by
  rw [issuePass_eq]
  refine ⟨?_, ?_, ?_, ?_, ?_, ⟨?_, ?_, ?_, ?_, ?_, ?_, ?_⟩⟩ <;> simp [State.issued]

/-! ### The request -/

theorem exec_reserve (tag r k p g o : Nat) (s : State) :
    exec (.reserve tag r k p g o) s = .next (portStep tag (.reserve r k p g o 0) s) := rfl

theorem serveReserve_error {o : ReserveOps} {s : State} {c : Code} {v : ReserveView}
    (h : s.reserveFind o = .error (c, v)) : serveReserve o s = (s, .reserve c o.ride v) := by
  simp only [serveReserve, h]

theorem serveReserve_bookFull {o : ReserveOps} {s : State} {f : Found} (hq : o.quote = false)
    (hf : s.reserveFind o = .ok f) (hn : s.book.noSpace = true) :
    serveReserve o s = (s, .reserve .bookFull o.ride { party := some o.party, t := some f.t }) := by
  simp [serveReserve, hf, hq, hn]

theorem serveReserve_issued {o : ReserveOps} {s : State} {f : Found} (hq : o.quote = false)
    (hf : s.reserveFind o = .ok f) (hn : s.book.noSpace = false) :
    serveReserve o s = (issuePass o f.index s, .reserve .done o.ride
      { pass := some s.book.serial, window := some f.index, startMin := some f.window.startMin,
        endMin := some f.window.endMin, party := some o.party, t := some f.t }) := by
  simp [serveReserve, hf, hq, hn]

/-- A refused RESERVE is answered with its refusal, by the gate while the day opens and by its owner else. -/
theorem gateServe_reserve_of_error {tag r k p g o fl : Nat} {s : State} {c : Code} {v : ReserveView}
    (h : s.reserveFind { ride := r, token := k, party := p, guard := g, operand := o, flags := fl } = .error (c, v)) :
    gateServe tag (.reserve r k p g o fl) s = (s, some (.reserve c r v)) := by
  by_cases hd : s.time.day = .opening
  · have hday : dayRefusal s.time.day = some .busy := by rw [hd, dayRefusal]
    rw [State.reserveFind_of_dayRefusal _ hday] at h
    cases h
    exact gateServe_gate tag _ s .busy hd rfl
  · rw [gateServe_pass tag _ s (.inl hd)]
    exact congrArg answered (serveReserve_error h)

/-- Settles O27: the pass is issued in the book and the levels judged, or the request is refused and nothing changes. -/
theorem reserveIssues : Obligations.ReserveIssues := by
  refine ⟨fun tag r k p g o s f hoff hf hn => ?_, fun tag r k p g o s f hoff hf hn => ?_,
    fun tag r k p g o s c v => ⟨fun hoff he => exec_answered (exec_reserve ..) hoff (gateServe_reserve_of_error he),
      fun hoff he => exec_answered (exec_reserveQuote ..) hoff (gateServe_reserve_of_error he)⟩, noSpace_iff⟩
  · have hpop := (s.popInput_reserveFind _).trans hf
    obtain ⟨hwindow, -⟩ := reserveFind_room hpop
    have hserve := congrArg answered (serveReserve_issued rfl hpop hn)
    obtain ⟨t, hexec, ht⟩ := exec_answeredAs (exec_reserve ..) hoff ((gateServe_reserve_of_found hpop).trans hserve)
      ((moves_issuePass _ f _ hpop).waiting_nil (popInput_waiting hoff))
    have hlevels := issuePass_levels
      { ride := r, token := k, party := p, guard := g, operand := o, flags := 0 } f.index s.popInput
    obtain ⟨hnew, hold⟩ := issuePass_find
      { ride := r, token := k, party := p, guard := g, operand := o, flags := 0 } f.index s.popInput
    obtain ⟨hserial, hactive, hretired, -, haccounts⟩ := issuePass_passes
      { ride := r, token := k, party := p, guard := g, operand := o, flags := 0 } f.index s.popInput
    obtain ⟨htime, hunits, hests, hpoller, hboards, hport⟩ := issuePass_keeps
      { ride := r, token := k, party := p, guard := g, operand := o, flags := 0 } f.index s.popInput
    have hbook := issued_rideBook hwindow
    refine ⟨t, hexec, ht.book ▸ hserial, ht.book ▸ hactive, ?pass, fun n hne => ?others, ?retired, ?account,
      fun j hj => ?accounts, ?windows, ?f, ?u, ?rides, ht.replied, ht.time.trans htime, ht.units.trans hunits,
      ht.ests.trans hests, ht.poller.trans hpoller, ht.boards.trans hboards, portKept_trans hport ht.port⟩
    case pass =>
      rw [ht.book]
      exact hnew
    case others =>
      rw [ht.book]
      exact hold n hne
    case retired => exact (congrArg (·.retired) ht.book).trans (hretired.trans (reclaim_retired s.book))
    case account =>
      rw [ht.book, haccounts, Table.find_put, if_pos rfl]
      simp only [State.popInput_book, Account.issued, saturate_eq_min]
      cases s.book.accounts.find k <;> rfl
    case accounts =>
      rw [ht.book, haccounts, Table.find_put, if_neg (Ne.symm hj)]
      rfl
    case windows =>
      rw [ht.rideBook, hlevels.windows, hbook]
      rfl
    case f =>
      rw [ht.rideBook, hlevels.f, hbook]
      rfl
    case u =>
      rw [ht.rideBook, hlevels.u, hbook]
      rfl
    case rides =>
      rw [ht.book]
      exact othersKept_trans (issued_others s.popInput
        { ride := r, token := k, party := p, guard := g, operand := o, flags := 0 } f.index) hlevels.others
  · have hpop := (s.popInput_reserveFind _).trans hf
    exact exec_answered (exec_reserve ..) hoff
      ((gateServe_reserve_of_found hpop).trans (congrArg answered (serveReserve_bookFull rfl hpop hn)))

end Sys2Proof.Machine
end

section
/-! An advance of CLOCK: O10. -/

namespace Sys2Proof.Machine

open Sys2Proof.Safety

/-! ### The takings of an advance (R2) -/

theorem takings_eq (d : Delivery) (late : List StateReport) (rides : List Nat) :
    takings d (!late.isEmpty) rides =
      (if late = [] then [] else [.lateReports]) ++ rides.map .second ++
        (if d.minuteTick then rides.map .testMinute ++ rides.map .estimator ++ [.overrides] else []) ++
        (if d.events = [] then [] else rides.map .windows) ++
        (if .parkClose ∈ d.events then .closePassed :: rides.map .parkClose else []) ++
        d.openings.map .opening := by
  have hlate : (if (!late.isEmpty) = true then [Taking.lateReports] else []) =
      if late = [] then [] else [.lateReports] := by cases late <;> rfl
  have hclose : (if d.events.contains .parkClose = true then Taking.closePassed :: rides.map .parkClose else []) =
      if .parkClose ∈ d.events then .closePassed :: rides.map .parkClose else [] :=
    if_congr List.contains_iff_mem rfl rfl
  have hwindows : (if d.events.isEmpty = true then [] else rides.map Taking.windows) =
      if d.events = [] then [] else rides.map .windows := if_congr List.isEmpty_iff rfl rfl
  rw [takings, hlate, hclose, hwindows]

/-- Every taking of an advance stands under its plain name. -/
theorem plain_takings (d : Delivery) (late : Bool) (rides : List Nat) :
    (takings d late rides).map plain = takings d late rides := by
  have hplain : ∀ k ∈ takings d late rides, plain k = k := fun k hk => by
    cases k with
    | estimatorLate r => simp [takings, apply_ite (Taking.estimatorLate r ∈ ·)] at hk
    | _ => rfl
  rw [List.map_congr_left hplain, List.map_id']

/-- The group of takings a taking stands in, in the default order. -/
def takingGroup : Taking → Nat
  | .lateReports => 0
  | .second _ => 1
  | .testMinute _ => 2
  | .estimator _ | .estimatorLate _ => 3
  | .overrides => 4
  | .windows _ => 5
  | .closePassed => 6
  | .parkClose _ => 7
  | .opening _ => 8

theorem nodup_append_of_groups {a b : List Taking} (n : Nat) (ha : a.Nodup) (hb : b.Nodup)
    (hlow : ∀ k ∈ a, takingGroup k < n) (hhigh : ∀ k ∈ b, n ≤ takingGroup k) : (a ++ b).Nodup := by
  refine List.nodup_append.mpr ⟨ha, hb, fun x hx y hy hxy => ?_⟩
  have hlow := hlow x hx
  have hhigh := hhigh y hy
  rw [hxy] at hlow
  omega

theorem nodup_ite {α : Type} {c : Bool} {a b : List α} (ha : a.Nodup) (hb : b.Nodup) : (if c then a else b).Nodup := by
  cases c <;> assumption

theorem takings_nodup (d : Delivery) (late : Bool) {rides : List Nat} (hr : rides.Nodup) (ho : d.openings.Nodup) :
    (takings d late rides).Nodup := by
  have hride : ∀ f : Nat → Taking, Function.Injective f → (rides.map f).Nodup := fun f hf => hr.map hf
  have hmem : ∀ (c : Bool) (k : Taking) (a b : List Taking),
      k ∈ (if c then a else b) ↔ if c then k ∈ a else k ∈ b := fun c k a b => by cases c <;> rfl
  refine nodup_append_of_groups 8 (nodup_append_of_groups 6 (nodup_append_of_groups 5 (nodup_append_of_groups 2
    (nodup_append_of_groups 1 (nodup_ite (List.nodup_singleton _) List.nodup_nil)
      (hride .second fun _ _ => Taking.second.inj) ?_ ?_) (nodup_ite (nodup_append_of_groups 4 (nodup_append_of_groups 3
        (hride .testMinute fun _ _ => Taking.testMinute.inj) (hride .estimator fun _ _ => Taking.estimator.inj)
        ?_ ?_) (List.nodup_singleton _) ?_ ?_) List.nodup_nil) ?_ ?_)
    (nodup_ite List.nodup_nil (hride .windows fun _ _ => Taking.windows.inj)) ?_ ?_)
    (nodup_ite (List.nodup_cons.mpr ⟨by simp, hride .parkClose fun _ _ => Taking.parkClose.inj⟩) List.nodup_nil) ?_ ?_)
    (ho.map fun _ _ => Taking.opening.inj) ?_ ?_
  all_goals
    intro k hk
    cases k <;> simp_all [takingGroup]

/-! ### What an advance does to the Time Base (R1, R14, R15) -/

theorem take_time (d : Delivery) (s : State) (k : Taking) :
    (take d s k).time =
      { s.time with closePassed := s.time.closePassed || decide (takingGroup k = 6 ∨ takingGroup k = 7) } := by
  cases k with
  | windows r =>
    have hfold : (d.events.foldl (bookEvent r) s).time = s.time :=
      foldl_keeps (fun s => s.time) _ (fun s e => by simp) _ _
    simp [take, takingGroup, hfold]
  | _ => simp [take, takingGroup]

theorem foldl_take_time (d : Delivery) (order : List Taking) (s : State) :
    (order.foldl (take d) s).time = { s.time with
      closePassed := s.time.closePassed || decide (∃ k ∈ order, takingGroup k = 6 ∨ takingGroup k = 7) } := by
  induction order generalizing s with
  | nil => simp
  | cons k ks ih =>
    rw [List.foldl_cons, ih, take_time]
    simp [Bool.or_assoc]

theorem mem_insertRising (n x : Nat) (ks : List Nat) : x ∈ insertRising n ks ↔ x = n ∨ x ∈ ks := by
  induction ks with
  | nil => simp [insertRising]
  | cons k ks ih =>
    unfold insertRising
    split
    · simp
    · split
      next h => simp [h]
      next => simp [ih, or_left_comm]

theorem mem_setMarks (rs : List Nat) (s : State) (r : Nat) :
    r ∈ (setMarks rs s).time.openMarks ↔ r ∈ s.time.openMarks ∨ r ∈ rs := by
  have hfold : ∀ marks : List Nat, r ∈ rs.foldl (fun ms x => insertRising x ms) marks ↔ r ∈ marks ∨ r ∈ rs := by
    induction rs with
    | nil => simp
    | cons x rs ih =>
      intro marks
      rw [List.foldl_cons, ih, mem_insertRising, List.mem_cons]
      tauto
  exact hfold _

theorem mem_keys_iff {α : Type} (t : Table α) (k : Nat) : k ∈ t.keys ↔ (t.find k).isSome = true := by
  induction t with
  | nil => simp [Table.keys, Table.find]
  | cons y t ih =>
    simp only [Table.keys, Table.find, List.mem_cons, ih]
    by_cases h : y.1 = k
    · simp [h]
    · simp [h, Ne.symm h]

theorem mem_openingRides (s : State) (m r : Nat) : r ∈ s.openingRides m ↔
    (∃ u, s.units.find r = some u ∧ u.config.opensAt = some m) ∧ r ∉ s.time.openMarks := by
  simp only [State.openingRides, List.mem_filter, State.rides, mem_keys_iff]
  cases s.units.find r <;> simp

/-- What an advance into this second delivers: in DAY, at a minute, the events due and the openings of that minute. -/
structure Delivers (forward : Bool) (s : State) (d : Delivery) (t : State) : Prop where
  forward : d.forward = forward
  minuteTick : d.minuteTick = decide (s.time.clock % 60 = 0)
  due : d.minuteTick = true → s.time.day = .day →
    d.events = ((s.time.schedule.drop s.time.position).takeWhile fun e => e.minute % 1440 = s.minute).map (·.event) ∧
    d.openings = s.openingRides s.minute
  nothing : d.minuteTick = false ∨ s.time.day ≠ .day → d.events = [] ∧ d.openings = []
  state : t = { s with time := { s.time with
    position := s.time.position + d.events.length, openMarks := t.time.openMarks } }
  marks : ∀ r, r ∈ t.time.openMarks ↔ r ∈ s.time.openMarks ∨ r ∈ d.openings

theorem deliver_delivers (forward : Bool) (s : State) :
    Delivers forward s (deliver forward s).1 (deliver forward s).2 := by
  by_cases hm : s.time.clock % 60 = 0
  · by_cases hd : s.time.day = .day
    · rw [deliver, if_pos hm, if_pos hd]
      refine ⟨rfl, (decide_eq_true hm).symm, fun _ _ => ⟨rfl, rfl⟩, fun h => absurd hd (h.resolve_left nofun), ?_,
        fun r => mem_setMarks _ _ r⟩
      simp [setMarks, takeDue]
    · rw [deliver, if_pos hm, if_neg hd]
      exact ⟨rfl, (decide_eq_true hm).symm, fun _ h => absurd h hd, fun _ => ⟨rfl, rfl⟩, rfl, fun r => by simp⟩
  · rw [deliver, if_neg hm]
    exact ⟨rfl, (decide_eq_false hm).symm, nofun, fun _ => ⟨rfl, rfl⟩, rfl, fun r => by simp⟩

theorem openingRides_nodup {s : State} (h : s.units.wf) (m : Nat) : (s.openingRides m).Nodup :=
  (List.Pairwise.imp Nat.ne_of_lt h).filter _

theorem Delivers.openings_nodup {forward : Bool} {s t : State} {d : Delivery} (h : Delivers forward s d t)
    (hwf : s.units.wf) : d.openings.Nodup := by
  by_cases hnone : d.minuteTick = false ∨ s.time.day ≠ .day
  · rw [(h.nothing hnone).2]
    exact List.nodup_nil
  · rw [not_or, Bool.not_eq_false, not_not] at hnone
    rw [(h.due hnone.1 hnone.2).2]
    exact openingRides_nodup hwf _

theorem stepClock_eq (s : State) (h : s.time.clock < 86400) :
    stepClock s = { s with time := { s.time with clock := (s.time.clock + 1) % 86400 } } := by
  unfold stepClock
  split
  next hlt => rw [Nat.mod_eq_of_lt (show s.time.clock + 1 < 86400 from hlt)]
  next hge =>
    have hwrap : s.time.clock + 1 = 86400 := by
      have hge : ¬s.time.clock + 1 < 86400 := hge
      omega
    rw [hwrap]

theorem exec_secondTick (s : State) (h : s.time.hold = 0) (hc : s.time.clockState = .running) :
    exec .secondTick s = .next (advance false (countReference s)) :=
  exec_next rfl (referenceSecond_running s h hc)

theorem stepClock_clock {s : State} (h : s.time.clock < 86400) :
    (stepClock s).time.clock % 60 = (s.time.clock + 1) % 60 ∧
    (stepClock s).minute = (s.time.clock + 1) / 60 % 1440 := by
  rw [stepClock_eq s h]
  simp only [State.minute]
  omega

theorem mem_takings_close (d : Delivery) (late : Bool) (rides : List Nat) :
    (∃ k ∈ takings d late rides, takingGroup k = 6 ∨ takingGroup k = 7) ↔ .parkClose ∈ d.events := by
  constructor
  · rintro ⟨k, hk, hgroup⟩
    by_contra hnot
    cases k <;> simp_all [takings, takingGroup]
  · intro h
    exact ⟨.closePassed, by simp [takings, h], .inl rfl⟩

theorem group_plain (k : Taking) : takingGroup (plain k) = takingGroup k := by cases k <;> rfl

/-- The park close is among the takings, however they are ordered, if it is among the events (R14). -/
theorem mem_order_close {d : Delivery} {late : Bool} {rides : List Nat} {order : List Taking}
    (h : (order.map plain).Perm (takings d late rides)) :
    (∃ k ∈ order, takingGroup k = 6 ∨ takingGroup k = 7) ↔ .parkClose ∈ d.events := by
  rw [← mem_takings_close d late rides]
  constructor
  · rintro ⟨k, hk, hgroup⟩
    exact ⟨plain k, h.mem_iff.mp (List.mem_map_of_mem hk), by rwa [group_plain]⟩
  · rintro ⟨k, hk, hgroup⟩
    obtain ⟨j, hj, rfl⟩ := List.mem_map.mp (h.mem_iff.mpr hk)
    exact ⟨j, hj, by rwa [group_plain] at hgroup⟩

/-- Settles O10: the second is delivered, and its takings are a permutation of the takings there are. -/
theorem secondTickAdvances : Obligations.SecondTickAdvances := by
  refine ⟨fun s h hc => ?_, fun _ => rfl, fun _ _ => rfl, fun forward s hclock hwf => ?_⟩
  · rw [exec_secondTick s h hc, ← countReference_time, ← countReference_boards]
    rfl
  · obtain ⟨hsecond, hminute⟩ := stepClock_clock hclock
    have hstep := stepClock_eq s hclock
    have hdel := deliver_delivers forward (stepClock s)
    generalize hx : deliver forward (stepClock s) = x at hdel
    obtain ⟨d, s0⟩ := x
    replace hdel : Delivers forward (stepClock s) d s0 := hdel
    have hperm := takings_perm s0.takeTickOrder.1 (takings d (!s.book.late.isEmpty) s.rides) (by
      rw [plain_takings]
      exact takings_nodup d _ (List.Pairwise.imp Nat.ne_of_lt hwf) (hdel.openings_nodup (by rw [hstep]; exact hwf)))
    rw [plain_takings] at hperm
    obtain ⟨htime, hunits, hpoller, hests, hbook, hboards, hnotices, hport, -⟩ := takeTickOrder_keeps s0
    have hstate : s0.time = { s.time with
        clock := (s.time.clock + 1) % 86400, position := s.time.position + d.events.length
        openMarks := s0.time.openMarks } := by
      have htime := congrArg (·.time) hdel.state
      rwa [hstep] at htime
    refine ⟨advance forward s, s0.takeTickOrder.2, d, _, rfl, by rw [advance, hx], hdel.forward, ?tick, ?due, ?nothing,
      ?time, ?marks, ?boards, ?units, ?poller, ?ests, ?book, ?notices, ?port, ?order, ?closed, (advance_keeps forward s).1⟩
    case tick => rw [hdel.minuteTick, hsecond]
    case due =>
      intro htick hday
      obtain ⟨hevents, hopenings⟩ := hdel.due htick hday
      rw [hminute] at hevents hopenings
      exact ⟨hevents, fun r => by rw [hopenings]; exact mem_openingRides _ _ r⟩
    case nothing => exact hdel.nothing
    case time =>
      rw [htime]
      exact hstate
    case marks =>
      intro r
      rw [htime]
      exact hdel.marks r
    case boards => exact hboards.trans (congrArg (·.boards) hdel.state)
    case units => exact hunits.trans (congrArg (·.units) hdel.state)
    case poller => exact hpoller.trans (congrArg (·.poller) hdel.state)
    case ests => exact hests.trans (congrArg (·.ests) hdel.state)
    case book => exact hbook.trans (congrArg (·.book) hdel.state)
    case notices => exact hnotices.trans (congrArg (·.notices) hdel.state)
    case port => exact hport.trans (congrArg (·.port) hdel.state)
    case order => exact hperm.trans (.of_eq (takings_eq d s.book.late s.rides))
    case closed =>
      rw [advance, hx]
      dsimp only
      rw [foldl_take_time, decide_eq_decide.mpr (mem_order_close hperm), htime]
      have hclosed := congrArg (·.closePassed) hstate
      dsimp only at hclosed
      rw [hclosed]

end Sys2Proof.Machine
end

section
/-! SETCLOCK in DAY and the taking of OPENDAY: O12, O13. -/

namespace Sys2Proof.Machine

open Sys2Proof.Safety

/-! ### Advances of a correction (R4) -/

theorem advance_clock (forward : Bool) {s : State} (h : s.time.clock < 86400) :
    (advance forward s).time.clock = (s.time.clock + 1) % 86400 ∧ (advance forward s).time.hold = s.time.hold ∧
    (advance forward s).time.clockState = s.time.clockState ∧ (advance forward s).time.day = s.time.day := by
  have hdel := (deliver_delivers forward (stepClock s)).state
  rw [stepClock_eq s h] at hdel
  unfold advance
  dsimp only
  rw [foldl_take_time, (takeTickOrder_keeps _).1, stepClock_eq s h, hdel]
  exact ⟨rfl, rfl, rfl, rfl⟩

theorem advances_clock (n : Nat) {s : State} (h : s.time.clock < 86400) :
    (advances n s).time.clock = (s.time.clock + n) % 86400 ∧ (advances n s).time.hold = s.time.hold ∧
    (advances n s).time.clockState = s.time.clockState ∧ (advances n s).time.day = s.time.day ∧
    (advances n s).poller = s.poller := by
  induction n generalizing s with
  | zero => exact ⟨(Nat.mod_eq_of_lt h).symm, rfl, rfl, rfl, rfl⟩
  | succ n ih =>
    obtain ⟨hclock, hhold, hstate, hday⟩ := advance_clock true h
    obtain ⟨hclock', hhold', hstate', hday', hpoller'⟩ := ih (s := advance true s) (by omega)
    refine ⟨?_, hhold'.trans hhold, hstate'.trans hstate, hday'.trans hday, hpoller'.trans (advance_keeps true s).1⟩
    rw [advances, hclock', hclock]
    omega

/-! ### SETCLOCK in DAY (R4) -/

section

variable {s : State} (v : Nat)

theorem serveSetclock_busy (hd : s.time.day = .day) (hh : 0 < s.time.hold) :
    serveSetclock v s = (s, setclockReply .busy s) := by
  rw [serveSetclock, if_pos hd, if_pos hh]

theorem serveSetclock_some (hd : s.time.day = .day) (hh : ¬0 < s.time.hold) {t : State}
    (hc : correct (ahead (saturate 86399 v) s.time.clock) s = some t) :
    serveSetclock v s = (t, setclockReply (if 86399 < v then .clamped else .done) t) := by
  have hc : correct (ahead (saturate (Config.daySeconds - 1) v) s.time.clock) s = some t := hc
  rw [serveSetclock, if_pos hd, if_neg hh, ← doneOr_saturate]
  simp only [hc]
  rfl

theorem serveSetclock_none (hd : s.time.day = .day) (hh : ¬0 < s.time.hold)
    (hc : correct (ahead (saturate 86399 v) s.time.clock) s = none) :
    serveSetclock v s = (s, setclockReply .badState s) := by
  have hc : correct (ahead (saturate (Config.daySeconds - 1) v) s.time.clock) s = none := hc
  rw [serveSetclock, if_pos hd, if_neg hh]
  simp only [hc]

end

theorem correct_zero (s : State) : correct 0 s = some s := rfl

theorem correct_forward {x : Nat} (s : State) (hx : x ≠ 0) (h : x ≤ 120) :
    correct x s = some (advances x (clearEligible s)) := by
  rw [correct, if_neg hx, if_pos (show x ≤ Config.correctionMax from h)]

theorem correct_hold {x : Nat} (s : State) (hx : x ≠ 0) (h : ¬x ≤ 120) (hb : 86400 ≤ x + 120) :
    correct x s = some { clearEligible s with time := { s.time with hold := 86400 - x } } := by
  rw [correct, if_neg hx, if_neg (show ¬x ≤ Config.correctionMax from h),
    if_pos (show Config.daySeconds ≤ x + Config.correctionMax from hb)]
  rfl

theorem correct_none {x : Nat} (s : State) (hx : x ≠ 0) (h : ¬x ≤ 120) (hb : ¬86400 ≤ x + 120) :
    correct x s = none := by
  rw [correct, if_neg hx, if_neg (show ¬x ≤ Config.correctionMax from h),
    if_neg (show ¬Config.daySeconds ≤ x + Config.correctionMax from hb)]

theorem setclock_answered {tag v : Nat} {s u : State} {o : Code} (hoff : Offered tag (.setclock v) s)
    (hu : serveSetclock v s.popInput = (u, setclockReply o u)) (hw : u.port.waiting = []) :
    ∃ t, exec (.setclock tag v) s = .next t ∧ AnsweredAs (.reply tag 1 (setclockReply o u)) u t ∧
      Replied (.reply tag 1 (.setclock o t.time.clock t.time.clockState t.time.hold)) t := by
  obtain ⟨t, hexec, ht⟩ := exec_answeredAs (c := .setclock tag v) rfl hoff
    ((gateServe_pass tag (.setclock v) s.popInput (.inr rfl)).trans (congrArg answered hu)) hw
  exact ⟨t, hexec, ht, by rw [ht.time]; exact ht.replied⟩

/-- Settles O12: a hold that runs is left alone; else the clock is corrected by how far the value lies ahead. -/
theorem setclockInDay : Obligations.SetclockInDay := by
  intro tag v x s hoff hday hclock hrun hx
  have hx : x = ahead (saturate 86399 v) s.time.clock := by rw [hx, saturate_eq_min, Nat.min_comm]; rfl
  have hvalue : min v 86399 = (s.time.clock + x) % 86400 := by
    rw [hx, saturate_eq_min, ahead, Config.daySeconds]
    omega
  have hwait := popInput_waiting hoff
  by_cases hh : 0 < s.time.hold
  · obtain ⟨t, hexec, ht, hreply⟩ := setclock_answered hoff (serveSetclock_busy v hday hh) hwait
    refine ⟨t, .busy, hexec, hreply, ht.time ▸ hrun, ht.time ▸ hday, ht.poller, ?_⟩
    rw [if_pos hh]
    exact ⟨rfl, ht.time, ht.ests, ht.units, ht.book, ht.boards, ht.notices⟩
  have hserve := fun u => serveSetclock_some (s := s.popInput) v hday hh (t := u)
  rw [show ahead (saturate 86399 v) s.popInput.time.clock = x from hx.symm] at hserve
  simp only [if_neg hh]
  by_cases hzero : x = 0
  · obtain ⟨t, hexec, ht, hreply⟩ := setclock_answered hoff (hserve _ (hzero ▸ correct_zero _)) hwait
    refine ⟨t, _, hexec, hreply, ht.time ▸ hrun, ht.time ▸ hday, ht.poller, ?_⟩
    rw [if_pos hzero]
    exact ⟨rfl, ht.time, ht.ests, ht.units, ht.book, ht.boards, ht.notices⟩
  simp only [if_neg hzero]
  by_cases hforward : x ≤ 120
  · have hmoves := (moves_clearEligible s.popInput).trans (moves_advances x _)
    obtain ⟨t, hexec, ht, hreply⟩ := setclock_answered hoff (hserve _ (correct_forward _ hzero hforward))
      (Moves.waiting_nil hmoves hwait)
    obtain ⟨hnow, hhold, hstate, hd, hpoller⟩ := advances_clock x (s := clearEligible s.popInput) hclock
    have hnow : (advances x (clearEligible s.popInput)).time.clock = min v 86399 := hnow.trans hvalue.symm
    have hhold : (advances x (clearEligible s.popInput)).time.hold = 0 := hhold.trans (by simpa using hh)
    have hstate : (advances x (clearEligible s.popInput)).time.clockState = .running := hstate.trans hrun
    refine ⟨t, _, hexec, hreply, ht.time ▸ hstate, ht.time ▸ hd.trans hday, ht.poller.trans hpoller, ?_⟩
    rw [if_pos hforward]
    refine ⟨rfl, ht.time ▸ hnow, ht.time ▸ hhold, ?_⟩
    rw [ht.eq, setclockReply, hnow, hhold, hstate]
  simp only [if_neg hforward]
  by_cases hback : 86400 ≤ x + 120
  · obtain ⟨t, hexec, ht, hreply⟩ := setclock_answered hoff (hserve _ (correct_hold _ hzero hforward hback)) hwait
    refine ⟨t, _, hexec, hreply, ht.time ▸ hrun, ht.time ▸ hday, ht.poller, ?_⟩
    rw [if_pos hback]
    refine ⟨rfl, ht.time, fun r e he => ?_, ht.units, ht.book, ht.boards, ht.notices⟩
    rw [ht.ests]
    simp [clearEligible, he]
  · have hnone : correct (ahead (saturate 86399 v) s.popInput.time.clock) s.popInput = none :=
      hx ▸ correct_none s.popInput hzero hforward hback
    obtain ⟨t, hexec, ht, hreply⟩ := setclock_answered hoff (serveSetclock_none v hday hh hnone) hwait
    refine ⟨t, .badState, hexec, hreply, ht.time ▸ hrun, ht.time ▸ hday, ht.poller, ?_⟩
    rw [if_neg hback]
    exact ⟨rfl, ht.time, ht.ests, ht.units, ht.book, ht.boards, ht.notices⟩

/-! ### The day schedule (R14) -/

theorem insertScheduled_eq (e : Scheduled) (xs : List Scheduled) :
    insertScheduled e xs = xs.orderedInsert (fun x y => x.rank ≤ y.rank) e := by
  induction xs with
  | nil => rfl
  | cons x xs ih => rw [insertScheduled, List.orderedInsert_cons, ih]

theorem foldr_insertScheduled (es : List Scheduled) :
    es.foldr insertScheduled [] = es.insertionSort fun x y => x.rank ≤ y.rank := by
  rw [funext fun e => funext (insertScheduled_eq e)]
  rfl

/-- The events of a plan, not yet in order. -/
def planEvents (plan : Plan) (gLate : Nat) : List Scheduled :=
  (List.range plan.n).map (fun i => { minute := plan.openMin + plan.len * i, event := .windowStart i }) ++
    (List.range plan.n).map (fun i =>
      { minute := plan.openMin + plan.len * (i + 1) + gLate + 1, event := .graceEnd i }) ++
    [{ minute := plan.closeMin, event := .parkClose },
      { minute := plan.openMin + plan.len * plan.n, event := .gridEnd }]

theorem buildSchedule_perm (plan : Plan) (gLate : Nat) : (buildSchedule plan gLate).Perm (planEvents plan gLate) := by
  unfold buildSchedule planEvents
  dsimp only
  rw [foldr_insertScheduled, List.append_assoc, List.append_assoc]
  exact (List.perm_insertionSort _ _).trans (List.perm_append_comm.append_left _)

theorem buildSchedule_ranked (plan : Plan) (gLate : Nat) :
    (buildSchedule plan gLate).Pairwise fun x y => x.rank ≤ y.rank := by
  have htotal : Std.Total fun x y : Scheduled => x.rank ≤ y.rank := ⟨fun x y => Nat.le_total x.rank y.rank⟩
  have htrans : IsTrans Scheduled fun x y => x.rank ≤ y.rank := ⟨fun _ _ _ => Nat.le_trans⟩
  unfold buildSchedule
  dsimp only
  rw [foldr_insertScheduled]
  exact List.pairwise_insertionSort _ _

/-- No two events of a plan are the same event. -/
theorem planEvents_nodup (plan : Plan) (gLate : Nat) : ((planEvents plan gLate).map (·.event)).Nodup := by
  have hstart := (List.nodup_range (n := plan.n)).map fun _ _ => DayEvent.windowStart.inj
  have hend := (List.nodup_range (n := plan.n)).map fun _ _ => DayEvent.graceEnd.inj
  simp only [planEvents, List.map_append, List.map_map, Function.comp_def, List.map_cons, List.map_nil]
  refine List.nodup_append.mpr ⟨List.nodup_append.mpr ⟨hstart, hend, ?_⟩, by simp, ?_⟩ <;>
    simp +contextual [List.mem_map, or_imp, forall_and]

theorem mem_planEvents {plan : Plan} {gLate : Nat} {x : Scheduled} (h : x ∈ planEvents plan gLate) {i : Nat}
    (hi : eventWindow x.event = some i) : i < plan.n ∧
      ((x.event = .windowStart i ∧ x.minute = plan.openMin + plan.len * i) ∨
        (x.event = .graceEnd i ∧ x.minute = plan.openMin + plan.len * (i + 1) + gLate + 1)) := by
  simp only [planEvents, List.mem_append, List.mem_map, List.mem_range, List.mem_cons, List.not_mem_nil, or_false] at h
  rcases h with (⟨j, hj, rfl⟩ | ⟨j, hj, rfl⟩) | rfl | rfl <;> cases hi
  · exact ⟨hj, .inl ⟨rfl, rfl⟩⟩
  · exact ⟨hj, .inr ⟨rfl, rfl⟩⟩

/-- The rank of an event of a plan is its minute, and within it the index of its window (R14). -/
theorem rank_of_mem {plan : Plan} {gLate : Nat} (hn : plan.n ≤ 96) {x : Scheduled} (h : x ∈ planEvents plan gLate) :
    ∃ k, k < 1000 ∧ x.rank = x.minute * 1000 + k ∧ ∀ i, eventWindow x.event = some i → k = i := by
  have hwindow := fun i => mem_planEvents h (i := i)
  obtain ⟨minute, event⟩ := x
  cases event with
  | windowStart i | graceEnd i =>
    have hi := (hwindow i rfl).1
    exact ⟨i, by omega, rfl, fun j hj => Option.some.inj hj⟩
  | parkClose => exact ⟨900, by omega, rfl, nofun⟩
  | gridEnd => exact ⟨901, by omega, rfl, nofun⟩

/-- The start and the grace end of a window are not at one minute. -/
theorem event_eq_of_minute {plan : Plan} {gLate : Nat} {x y : Scheduled} (hx : x ∈ planEvents plan gLate)
    (hy : y ∈ planEvents plan gLate) (hm : x.minute = y.minute) {i : Nat} (hxi : eventWindow x.event = some i)
    (hyi : eventWindow y.event = some i) : x.event = y.event := by
  have hafter : plan.len * (i + 1) = plan.len * i + plan.len := Nat.mul_succ _ _
  obtain ⟨-, ⟨hex, hmx⟩ | ⟨hex, hmx⟩⟩ := mem_planEvents hx hxi <;>
    obtain ⟨-, ⟨hey, hmy⟩ | ⟨hey, hmy⟩⟩ := mem_planEvents hy hyi
  · rw [hex, hey]
  · omega
  · omega
  · rw [hex, hey]

/-- The schedule of a plan of at most 96 windows is the schedule R14 asks for. -/
theorem buildSchedule_isSchedule (plan : Plan) (gLate : Nat) (hn : plan.n ≤ 96) :
    IsSchedule plan gLate (buildSchedule plan gLate) := by
  refine ⟨buildSchedule_perm plan gLate, ?_⟩
  have hperm := buildSchedule_perm plan gLate
  have hdistinct : (buildSchedule plan gLate).Pairwise fun x y => x.event ≠ y.event :=
    List.pairwise_map.mp ((hperm.map _).nodup_iff.mpr (planEvents_nodup plan gLate))
  refine ((buildSchedule_ranked plan gLate).and hdistinct).imp_of_mem fun {x y} hx hy h => ?_
  obtain ⟨hrank, hne⟩ := h
  have hx := hperm.mem_iff.mp hx
  have hy := hperm.mem_iff.mp hy
  obtain ⟨k, hk, hrx, hkx⟩ := rank_of_mem hn hx
  obtain ⟨l, hl, hry, hly⟩ := rank_of_mem hn hy
  rw [hrx, hry] at hrank
  rcases Nat.lt_or_ge x.minute y.minute with hlt | hge
  · exact .inl hlt
  · have hm : x.minute = y.minute := by omega
    refine .inr ⟨hm, fun i j hi hj => ?_⟩
    obtain rfl := hkx i hi
    obtain rfl := hly j hj
    refine Nat.lt_of_le_of_ne (by omega) fun heq => hne ?_
    rw [← heq] at hj
    exact event_eq_of_minute hx hy hm hi hj

/-! ### The empty book (R7) -/

/-- `t` has the output of `s`, and notices after it. -/
def NoticesOnly (s t : State) : Prop :=
  ∃ ns, t.port.output = s.port.output ++ ns ∧ ∀ x ∈ ns, ∃ id l, x = .notice id l

theorem NoticesOnly.of_eq {s t : State} (h : t.port.output = s.port.output) : NoticesOnly s t :=
  ⟨[], by rw [h, List.append_nil], fun _ hx => absurd hx List.not_mem_nil⟩

theorem NoticesOnly.trans {s t u : State} (h : NoticesOnly s t) (g : NoticesOnly t u) : NoticesOnly s u := by
  obtain ⟨ns, hns, hn⟩ := h
  obtain ⟨ms, hms, hm⟩ := g
  refine ⟨ns ++ ms, by rw [hms, hns, List.append_assoc], fun x hx => ?_⟩
  rcases List.mem_append.mp hx with hx | hx
  · exact hn x hx
  · exact hm x hx

theorem grantNotice_noticesOnly (s : State) : NoticesOnly s (grantNotice s) := by
  unfold grantNotice
  split
  · exact .of_eq rfl
  · dsimp only
    split
    · exact .of_eq rfl
    · exact ⟨[_], rfl, fun x hx => ⟨_, _, List.mem_singleton.mp hx⟩⟩

theorem joinSendList_noticesOnly (id : SlotId) {s : State} (hw : s.port.waiting = []) :
    NoticesOnly s (joinSendList id s) := by
  unfold joinSendList
  split
  · exact .of_eq rfl
  · unfold grantPlace
    split
    · simp only [hw]
      split
      · exact .of_eq rfl
      · rename_i h _
        cases h
      · exact grantNotice_noticesOnly _
      · rename_i h _
        cases h
    · exact .of_eq rfl

/-- While no reply waits, what moves enter into the output queue is notices. -/
theorem Move.noticesOnly {s t : State} (h : Move s t) (hw : s.port.waiting = []) : NoticesOnly s t := by
  cases h with
  | port port hp => exact .of_eq hp.output
  | join id => exact joinSendList_noticesOnly id hw
  | _ => exact .of_eq rfl

theorem Moves.noticesOnly {s t : State} (h : Moves s t) (hw : s.port.waiting = []) : NoticesOnly s t := by
  induction h with
  | refl => exact .of_eq rfl
  | tail hs hm ih => exact ih.trans (hm.noticesOnly (Moves.waiting_nil hs hw))

/-- `t` is `s` with levels judged: what the book keeps of its passes and all that is not the book or a notice stands. -/
structure Judged (s t : State) : Prop where
  time : t.time = s.time
  units : t.units = s.units
  ests : t.ests = s.ests
  poller : t.poller = s.poller
  boards : t.boards = s.boards
  passes : t.book.passes = s.book.passes
  retired : t.book.retired = s.book.retired
  serial : t.book.serial = s.book.serial
  accounts : t.book.accounts = s.book.accounts
  activeCount : t.book.activeCount = s.book.activeCount
  port : PortKept s t

theorem Judged.refl (s : State) : Judged s s :=
  ⟨rfl, rfl, rfl, rfl, rfl, rfl, rfl, rfl, rfl, rfl, portKept_of_eq rfl⟩

theorem Judged.trans {s t u : State} (h : Judged s t) (g : Judged t u) : Judged s u :=
  ⟨g.time.trans h.time, g.units.trans h.units, g.ests.trans h.ests, g.poller.trans h.poller, g.boards.trans h.boards,
    g.passes.trans h.passes, g.retired.trans h.retired, g.serial.trans h.serial, g.accounts.trans h.accounts,
    g.activeCount.trans h.activeCount, portKept_trans h.port g.port⟩

theorem judged_judgeSlots (r : Nat) (s : State) : Judged s (judgeSlots r s) := by
  refine ⟨?_, ?_, ?_, ?_, ?_, ?_, ?_, ?_, ?_, ?_, ⟨?_, ?_, ?_, ?_, ?_, ?_, ?_⟩⟩ <;> simp

theorem judged_judgeFlex (r : Nat) (s : State) : Judged s (judgeFlex r s) := by
  refine ⟨?_, ?_, ?_, ?_, ?_, ?_, ?_, ?_, ?_, ?_, ⟨?_, ?_, ?_, ?_, ?_, ?_, ?_⟩⟩ <;> simp

theorem judged_judgeBook (s : State) : Judged s (judgeBook s) := by
  refine ⟨?_, ?_, ?_, ?_, ?_, ?_, ?_, ?_, ?_, ?_, ⟨?_, ?_, ?_, ?_, ?_, ?_, ?_⟩⟩ <;> simp

theorem judged_foldl {α : Type} {f : State → α → State} (h : ∀ s x, Judged s (f s x)) (xs : List α) (s : State) :
    Judged s (xs.foldl f s) := by
  induction xs generalizing s with
  | nil => exact .refl s
  | cons x xs ih => exact (h s x).trans (ih (f s x))

/-- The book emptied, its levels not yet judged (R7). -/
def State.emptied (s : State) : State :=
  { s with book :=
    { s.book with
      rides := s.book.rides.each fun _ b => { b with windows := [], f := 0, u := 0 }
      passes := [], retired := [], serial := 1, accounts := [], activeCount := 0 } }

/-- The emptied book with the levels of its rides judged. -/
def State.emptiedJudged (s : State) : State :=
  s.emptied.book.rides.keys.foldl (fun s r => judgeSlots r (judgeFlex r s)) s.emptied

theorem emptyBook_eq (s : State) : emptyBook s =
    { judgeBook s.emptiedJudged with book := { (judgeBook s.emptiedJudged).book with rides := [] } } := rfl

theorem emptiedJudged_judged (s : State) : Judged s.emptied s.emptiedJudged :=
  judged_foldl (fun s r => (judged_judgeFlex r s).trans (judged_judgeSlots r _)) _ _

theorem emptyBook_judged (s : State) : Judged s.emptied (emptyBook s) := by
  have hjudge := (emptiedJudged_judged s).trans (judged_judgeBook _)
  rw [emptyBook_eq]
  exact { hjudge with port := portKept_trans hjudge.port (portKept_of_eq rfl) }

/-- No level of an empty book holds (R132). -/
theorem emptyBook_bookLevel (s : State) : (emptyBook s).book.bookLevel = false := by
  have hjudge := emptiedJudged_judged s
  rw [emptyBook_eq]
  dsimp only
  rw [judgeBook_level, Book.holds, hjudge.activeCount, hjudge.accounts]
  rfl

/-! ### OPENDAY (R6, R7) -/

theorem planFor_eq {p : Params} {openMin closeMin : Nat} (hopen : openMin + 60 ≤ closeMin)
    (hlate : closeMin + p.gLate ≤ 1439) : planFor p openMin closeMin = some
      { openMin, closeMin, len := p.l, n := min 96 ((closeMin - openMin) / p.l) } := by
  have hok : ¬(closeMin ≤ openMin ∨ closeMin - openMin < 60 ∨ Config.dayMinutes - 1 < closeMin + p.gLate) := by
    have hday : Config.dayMinutes = 1440 := rfl
    omega
  rw [planFor, if_neg hok, saturate_eq_min]
  rfl

theorem openday_clamped (o c len : Nat) :
    doneOr (decide (saturate 1439 o ≠ o ∨ saturate 1439 c ≠ c ∨
      min 96 ((min c 1439 - min o 1439) / len) < (min c 1439 - min o 1439) / len)) =
    if 1439 < o ∨ 1439 < c ∨ 96 < (min c 1439 - min o 1439) / len then .clamped else .done := by
  refine if_congr (decide_eq_true_iff.trans ?_) rfl rfl
  rw [saturate_eq_min, saturate_eq_min]
  generalize (min c 1439 - min o 1439) / len = n
  omega

theorem serveOpenday_taken {tag o c : Nat} {s : State} {plan : Plan} (hd : s.time.day = .idle ∨ s.time.day = .after)
    (hrun : s.time.clockState = .running)
    (hplan : planFor s.time.params (saturate 1439 o) (saturate 1439 c) = some plan) :
    serveOpenday tag o c s = (takeOpenday tag (doneOr (decide (saturate 1439 o ≠ o ∨ saturate 1439 c ≠ c ∨
      plan.n < (saturate 1439 c - saturate 1439 o) / plan.len))) plan s, none) := by
  have hplan : planFor s.time.params (saturate (Config.dayMinutes - 1) o) (saturate (Config.dayMinutes - 1) c) =
      some plan := hplan
  obtain ⟨hopening, hday⟩ := idle_or_after_ne hd
  have hset : s.time.clockState ≠ .unset := by rw [hrun]; nofun
  rw [serveOpenday, if_neg (not_or.mpr ⟨hday, hopening⟩), if_neg hset]
  simp only [hplan]
  rfl

theorem exec_unanswered {c : Instr} {tag : Nat} {rq : Request} {s t : State}
    (hc : exec c s = .next (portStep tag rq s)) (hoff : Offered tag rq s)
    (hg : gateServe tag rq s.popInput = (t, none)) : exec c s = .next t := by
  rw [hc, portStep_offered tag rq s hoff, takeRequest, hg]

/-- Settles O13: the plan is made, its schedule built and the book emptied; the reply waits for the end of the erase. -/
theorem opendayTaken : Obligations.OpendayTaken := by
  intro tag o c s hoff hd hrun hlen hlate
  have hplan : planFor s.popInput.time.params (saturate 1439 o) (saturate 1439 c) = some
      { openMin := min o 1439, closeMin := min c 1439, len := s.time.params.l
        n := min 96 ((min c 1439 - min o 1439) / s.time.params.l) } := by
    rw [saturate_eq_min, saturate_eq_min, Nat.min_comm 1439 o, Nat.min_comm 1439 c]
    exact planFor_eq hlen hlate
  have hserve := serveOpenday_taken (tag := tag) (s := s.popInput) hd hrun hplan
  rw [show saturate 1439 c - saturate 1439 o = min c 1439 - min o 1439 by
    rw [saturate_eq_min, saturate_eq_min, Nat.min_comm 1439 o, Nat.min_comm 1439 c]] at hserve
  dsimp only at hserve
  rw [openday_clamped] at hserve
  have hexec := exec_unanswered (c := .openday tag o c) rfl hoff
    ((gateServe_pass tag (.openday o c) s.popInput (.inl (idle_or_after_ne hd).1)).trans hserve)
  refine ⟨_, hexec, ?_⟩
  have hkept := emptyBook_judged s.popInput
  have hmoves := moves_emptyBook s.popInput
  have hwait := popInput_waiting hoff
  have hemptied : PortKept s.popInput s.popInput.emptied := portKept_of_eq rfl
  have hport := portKept_trans hemptied hkept.port
  refine ⟨rfl, rfl, rfl, fun plan hp => ?schedule, rfl, rfl, rfl, ?clock, ?hold, ?params, rfl, hkept.passes,
    hkept.retired, hkept.serial, hkept.accounts, hkept.activeCount, emptyBook_bookLevel _, hkept.units, hkept.ests,
    hkept.poller, hkept.boards, hmoves.waiting_nil hwait, hmoves.noticesOnly hwait,
    portKept_trans hport (portKept_of_eq rfl)⟩
  case schedule =>
    obtain rfl := Option.some.inj hp
    have hlate : (emptyBook s.popInput).time.params.gLate = s.time.params.gLate := by rw [hkept.time]; rfl
    rw [← hlate]
    exact buildSchedule_isSchedule _ _ (Nat.min_le_left _ _)
  case clock => exact congrArg (·.clock) hkept.time
  case hold => exact congrArg (·.hold) hkept.time
  case params => exact congrArg (·.params) hkept.time

end Sys2Proof.Machine
end

section
/-! Placement, and the requests that run it for one ride: O23. -/

namespace Sys2Proof.Machine

open Sys2Proof.Safety

/-! ### The walk of placement (R96) -/

/-- The hold that a window takes of `u` unplaced guests. -/
def holdTaken (u : Nat) (w : Window) : Nat := if w.resolved then 0 else w.holdFor u

/-- What is left of `u` unplaced guests after the first `k` windows of the walk. -/
def walkLeft : Nat → List Window → Nat → Nat
  | u, w :: ws, k + 1 => walkLeft (u - holdTaken u w) ws k
  | u, _, _ => u

theorem walkLeft_zero (u : Nat) (ws : List Window) : walkLeft u ws 0 = u := by cases ws <;> rfl

theorem placeWalk_cons (u : Nat) (w : Window) (ws : List Window) : placeWalk u (w :: ws) =
    ((placeWalk (u - holdTaken u w) ws).1,
      { w with hold := w.hold + holdTaken u w } :: (placeWalk (u - holdTaken u w) ws).2) := by
  rcases w with ⟨_, _, _, _, _, _, _, _, _, resolved, _⟩
  cases resolved <;> simp [placeWalk, holdTaken]

theorem placeWalk_left (u : Nat) (ws : List Window) : (placeWalk u ws).1 = walkLeft u ws ws.length := by
  induction ws generalizing u with
  | nil => rfl
  | cons w ws ih => rw [placeWalk_cons, ih, List.length_cons, walkLeft]

theorem placeWalk_length (u : Nat) (ws : List Window) : (placeWalk u ws).2.length = ws.length := by
  induction ws generalizing u with
  | nil => rfl
  | cons w ws ih => rw [placeWalk_cons, List.length_cons, ih, List.length_cons]

theorem placeWalk_get (u : Nat) {ws : List Window} {k : Nat} {w : Window} (h : ws[k]? = some w) :
    (placeWalk u ws).2[k]? = some { w with hold := w.hold + holdTaken (walkLeft u ws k) w } ∧
    walkLeft u ws (k + 1) = walkLeft u ws k - holdTaken (walkLeft u ws k) w := by
  induction ws generalizing u k with
  | nil => cases h
  | cons x ws ih =>
    rw [placeWalk_cons]
    cases k with
    | zero =>
      obtain rfl := Option.some.inj h
      exact ⟨rfl, by rw [walkLeft, walkLeft_zero, walkLeft_zero]⟩
    | succ k => exact ih _ h

theorem place_none {m : Nat} {b : RideBook} (h : ∀ i, ¬LeadWindow b m i) : b.place m = b := by
  rw [RideBook.place, (leadIndex_none_iff b m).mpr h]

theorem place_some {m i : Nat} {b : RideBook} (h : LeadWindow b m i) : b.place m = { b with
    windows := b.windows.take i ++ (placeWalk b.u (b.windows.drop i)).2
    u := (placeWalk b.u (b.windows.drop i)).1 } := by
  rw [RideBook.place, (leadIndex_some_iff b m i).mpr h]

theorem leadWindow_lt {m i : Nat} {b : RideBook} (h : LeadWindow b m i) : i < b.windows.length := by
  obtain ⟨-, w, hw, -⟩ := h
  exact (List.getElem?_eq_some_iff.mp hw).1

/-- What is left to place before window `j`, when the walk starts at window `i`. -/
def RideBook.left (b : RideBook) (i j : Nat) : Nat := walkLeft b.u (b.windows.drop i) (j - i)

/-- Each window from the lead window on takes its hold of what the windows before it have left (R96). -/
theorem place_window {m i : Nat} {b : RideBook} (h : LeadWindow b m i) {j : Nat} {w : Window}
    (hw : b.windows[j]? = some w) :
    ∃ n, n = (if j < i ∨ w.resolved = true then 0
        else min (b.left i j) (min (w.cap / 2 - w.hold) (w.cap - w.issued - w.hold))) ∧
      (b.place m).windows[j]? = some { w with hold := w.hold + n } ∧ (i ≤ j → b.left i (j + 1) = b.left i j - n) := by
  have hlen : (b.windows.take i).length = i := by
    rw [List.length_take]
    exact Nat.min_eq_left (Nat.le_of_lt (leadWindow_lt h))
  rw [place_some h]
  by_cases hj : j < i
  · refine ⟨0, by rw [if_pos (.inl hj)], ?_, fun hij => absurd hj (Nat.not_lt.mpr hij)⟩
    dsimp only
    rw [List.getElem?_append_left (by omega), List.getElem?_take_of_lt hj, hw]
    rfl
  · have hdrop : (b.windows.drop i)[j - i]? = some w := by
      rw [List.getElem?_drop, Nat.add_sub_cancel' (Nat.not_lt.mp hj), hw]
    obtain ⟨hget, hleft⟩ := placeWalk_get b.u hdrop
    refine ⟨holdTaken (b.left i j) w, ?_, ?_, fun _ => ?_⟩
    · simp only [holdTaken, Window.holdFor, hj, false_or]
    · dsimp only
      rw [List.getElem?_append_right (by omega), hlen]
      exact hget
    · rw [RideBook.left, Nat.sub_add_comm (Nat.not_lt.mp hj)]
      exact hleft

theorem place_length (m : Nat) (b : RideBook) : (b.place m).windows.length = b.windows.length := by
  have hmap := congrArg List.length (place_resolved m b)
  rwa [List.length_map, List.length_map] at hmap

theorem place_left {m i : Nat} {b : RideBook} (h : LeadWindow b m i) :
    b.place m = { b with windows := (b.place m).windows, u := b.left i b.windows.length } := by
  have hu : (placeWalk b.u (b.windows.drop i)).1 = b.left i b.windows.length := by
    rw [placeWalk_left, List.length_drop]
    rfl
  rw [place_some h, hu]

/-! ### Placement and judgement in one ride's book (R95, R96, R99) -/

/-- The book of a ride once placement has run, where it runs. -/
def State.placedBook (s : State) (r : Nat) : RideBook :=
  if (s.units.find r).map (·.state) = some .opened ∧ 0 < (s.rideBook r).u then (s.rideBook r).place s.minute
  else s.rideBook r

theorem placedBook_eq {s : State} {r : Nat} {u : RideUnit} {b : RideBook} (hu : s.units.find r = some u)
    (hb : s.rideBook r = b) :
    s.placedBook r = if u.state = .opened ∧ 0 < b.u then b.place s.minute else b := by
  rw [State.placedBook, hu, hb, Option.map_some]
  exact if_congr (by rw [Option.some.injEq]) rfl rfl

theorem place_placedBook (r : Nat) (s : State) : (place r s).rideBook r = s.placedBook r := by
  obtain ⟨hruns, hstands⟩ := place_rideBook r s
  by_cases h : s.placeRuns r
  · exact (hruns h).trans (if_pos h).symm
  · exact (congrArg (·.rideBook r) (hstands h)).trans (if_neg h).symm

/-- `t` is `s` with placement run for ride `r` and levels judged. -/
structure Placed (r : Nat) (s t : State) : Prop where
  windows : (t.rideBook r).windows = (s.placedBook r).windows
  u : (t.rideBook r).u = (s.placedBook r).u
  f : (t.rideBook r).f = (s.rideBook r).f
  others : OthersKept r s.book.rides t.book.rides
  judged : Judged s t

theorem judged_place (r : Nat) (s : State) : Judged s (place r s) := by
  refine ⟨?_, ?_, ?_, ?_, ?_, ?_, ?_, ?_, ?_, ?_, ⟨?_, ?_, ?_, ?_, ?_, ?_, ?_⟩⟩ <;> simp

theorem placedBook_f (s : State) (r : Nat) : (s.placedBook r).f = (s.rideBook r).f := by
  unfold State.placedBook
  split
  · exact place_f _ _
  · rfl

theorem placed_place (r : Nat) (s : State) : Placed r s (place r s) := by
  have hb := place_placedBook r s
  exact ⟨by rw [hb], by rw [hb], by rw [hb, placedBook_f], place_others r s, judged_place r s⟩

theorem Placed.levels {r : Nat} {s t u : State} (h : Placed r s t) (hl : LevelsOnly r t u) (hj : Judged t u) :
    Placed r s u :=
  ⟨hl.windows.trans h.windows, hl.u.trans h.u, hl.f.trans h.f, othersKept_trans h.others hl.others, h.judged.trans hj⟩

/-- Placement, then the judgement of FLEX and SLOTS. -/
theorem placed_judged (r : Nat) (s : State) : Placed r s (judgeSlots r (judgeFlex r (place r s))) :=
  ((placed_place r s).levels (judgeFlex_levels r _) (judged_judgeFlex r _)).levels (judgeSlots_levels r _)
    (judged_judgeSlots r _)

/-- A write of a ride's book that makes nothing of nothing writes it, held or not. -/
theorem modBook_rideBook_of_empty (s : State) (r : Nat) {f : RideBook → RideBook} (hf : f {} = {}) :
    (s.modBook r f).rideBook r = f (s.rideBook r) := by
  cases hb : s.book.rides.find r with
  | none => rw [modBook_absent hb, rideBook_of_absent hb, hf]
  | some b => rw [modBook_rideBook hb, rideBook_of_find hb]

theorem judged_modBook (s : State) (r : Nat) (f : RideBook → RideBook) : Judged s (s.modBook r f) :=
  ⟨rfl, rfl, rfl, rfl, rfl, rfl, rfl, rfl, rfl, rfl, portKept_of_eq rfl⟩

/-! ### SETWINDOW (R89) -/

theorem setInRange_eq (first last v : Nat) (w : Window) : Window.setInRange first last (saturate Config.capMax v) w =
    if first ≤ w.index ∧ w.index ≤ last then { w with cap := max (min v 7499) (w.issued + w.hold) } else w := by
  rw [Window.setInRange, Window.setCap, saturate_eq_min, Nat.min_comm]
  rfl

section

variable {s : State} {r g o i j v : Nat} {u : RideUnit}

theorem serveSetwindow_taken {first last : Nat} (hd : s.time.day = .day) (hg : g ≤ 10)
    (hu : s.units.find r = some u) (hfirst : first = min i ((s.rideBook r).windows.length - 1))
    (hlast : last = min j ((s.rideBook r).windows.length - 1)) (hle : first ≤ last)
    (hopen : (s.windowRange r first last).all (fun w => !w.resolved) = true) (hguard : s.guardHolds g o r = true) :
    (serveSetwindow r g o i j v s).1 = takeSetwindow r first last (saturate Config.capMax v) s := by
  have hres : guardReserved g = false := decide_eq_false (by omega)
  have hopen : (s.windowRange r first last).any (·.resolved) = false := by
    rw [← Bool.not_eq_true, List.any_eq_true]
    rintro ⟨w, hw, hr⟩
    have := List.all_eq_true.mp hopen w hw
    rw [hr] at this
    cases this
  simp only [serveSetwindow, (dayRefusal_none_iff _).mpr hd, hres, hu, saturate_eq_min,
    Nat.min_comm ((s.rideBook r).windows.length - 1), ← hfirst, ← hlast, if_neg (Nat.not_lt.mpr hle), hopen, hguard,
    Bool.false_eq_true, Bool.true_eq_false, if_false]

end

theorem takeSetwindow_placed (r first last v : Nat) (s : State) :
    Placed r (s.modBook r fun b => { b with
        windows := b.windows.map (Window.setInRange first last (saturate Config.capMax v)) })
      (takeSetwindow r first last (saturate Config.capMax v) s) := placed_judged r _

theorem takeSetwindow_passes (r first last v : Nat) (s : State) : PassesKept s (takeSetwindow r first last v s) := by
  constructor <;> simp [takeSetwindow]

theorem setInRange_book (first last v r : Nat) (s : State) :
    (s.modBook r fun b => { b with
      windows := b.windows.map (Window.setInRange first last (saturate Config.capMax v)) }).rideBook r =
    { s.rideBook r with windows := (s.rideBook r).windows.map fun w =>
      if first ≤ w.index ∧ w.index ≤ last then { w with cap := max (min v 7499) (w.issued + w.hold) } else w } := by
  rw [modBook_rideBook_of_empty s r rfl, funext (setInRange_eq first last v)]

/-- Settles O23: SETWINDOW writes the capacities of its range, runs the placement and judges the levels; the placement
walks from the lead window on. -/
theorem setwindowTakes : Obligations.SetwindowTakes := by
  refine ⟨fun tag r g o i j v s u first last b hoff hd hg hu hfirst hlast hle hopen hguard hb => ?_, fun m b =>
    ⟨place_none, fun i hi => ⟨b.left i, ?_, place_length m b, fun j w hw => place_window hi hw, place_left hi⟩⟩⟩
  · have hserve := serveSetwindow_taken (s := s.popInput) (v := v) hd hg hu hfirst hlast hle hopen hguard
    have hwait := (moves_serveSetwindow r g o i j v s.popInput).waiting_nil (popInput_waiting hoff)
    obtain ⟨t, hexec, ht⟩ := exec_answeredAs (c := .setwindow tag r g o i j v) rfl hoff
      (gateServe_pass tag (.setwindow r g o i j v) s.popInput (.inl (day_ne_opening hd))) hwait
    rw [hserve] at ht
    have hplaced := takeSetwindow_placed r first last v s.popInput
    have hbook := hb.trans (setInRange_book _ _ v r s.popInput).symm
    have hrun := placedBook_eq (s := s.popInput.modBook r _) hu hbook.symm
    have hj := (judged_modBook s.popInput r _).trans hplaced.judged
    have hpasses := passesKept_trans (passesKept_of_eq (s := s) (State.popInput_book s))
      (takeSetwindow_passes r first last (saturate Config.capMax v) s.popInput)
    refine ⟨t, hexec, ?windows, ?u, ?f, ?others, ?passes, ht.time.trans hj.time, ht.units.trans hj.units,
      ht.ests.trans hj.ests, ht.poller.trans hj.poller, ht.boards.trans hj.boards, portKept_trans hj.port ht.port⟩
    case windows => rw [ht.rideBook, hplaced.windows, hrun]; rfl
    case u => rw [ht.rideBook, hplaced.u, hrun]; rfl
    case f => rw [ht.rideBook, hplaced.f, hbook]
    case others =>
      rw [ht.book]
      exact othersKept_trans (modBook_others r _ s.popInput) hplaced.others
    case passes =>
      exact passesKept_trans hpasses (passesKept_of_eq ht.book)
  · rw [RideBook.left, Nat.sub_self, walkLeft_zero]

end Sys2Proof.Machine
end

section
/-! CONFRIDE for a configured ride: O19. -/

namespace Sys2Proof.Machine

open Sys2Proof.Safety

/-! ### The ride's own records (R21, R57) -/

/-- The ride with its new configuration and the Field Poller told of a new address, the Return Book not yet told. -/
def State.reconfigured (s : State) (r : Nat) (old new : RideConfig) : State :=
  if new.fieldAddress = old.fieldAddress then s.modUnit r fun u => { u with config := new }
  else changeAddress r new.fieldAddress (s.modUnit r fun u => { u with config := new })

/-- A field record once its ride has a new address, if it has (R57). -/
def FieldRecord.readdressed (old new : Nat) (f : FieldRecord) : FieldRecord :=
  if new = old then f else { f with address := new, baseValid := false, misses := 0 }

/-- The field line once a ride has a new address, if it has: the poll to the old one is abandoned. -/
def FieldLine.readdressed (r old new : Nat) (l : FieldLine) : FieldLine := if new = old then l else l.abandon r

theorem changeAddress_eq (r a : Nat) (s : State) : changeAddress r a s = { s with poller := { s.poller with
    line := s.poller.line.abandon r
    records := s.poller.records.update r fun f => { f with address := a, baseValid := false, misses := 0 } } } :=
  abandonPoll_eq r _

theorem reconfigured_eq (s : State) (r : Nat) (old new : RideConfig) :
    (s.reconfigured r old new).units = s.units.update r (fun u => { u with config := new }) ∧
    (s.reconfigured r old new).time = s.time ∧ (s.reconfigured r old new).ests = s.ests ∧
    (s.reconfigured r old new).book = s.book ∧ (s.reconfigured r old new).boards = s.boards ∧
    (s.reconfigured r old new).port = s.port := by
  unfold State.reconfigured
  split
  · exact ⟨rfl, rfl, rfl, rfl, rfl, rfl⟩
  · rw [changeAddress_eq]
    exact ⟨rfl, rfl, rfl, rfl, rfl, rfl⟩

theorem reconfigured_poller (s : State) (r : Nat) (old new : RideConfig) :
    (s.reconfigured r old new).poller.line = s.poller.line.readdressed r old.fieldAddress new.fieldAddress ∧
    (∀ f, s.poller.records.find r = some f → (s.reconfigured r old new).poller.records.find r =
      some (f.readdressed old.fieldAddress new.fieldAddress)) ∧
    OthersKept r s.poller.records (s.reconfigured r old new).poller.records ∧
    (s.reconfigured r old new).poller.last = s.poller.last ∧ (s.reconfigured r old new).poller.sent = s.poller.sent := by
  unfold State.reconfigured FieldLine.readdressed FieldRecord.readdressed
  split
  · exact ⟨rfl, fun f hf => hf, othersKept_refl _ _, rfl, rfl⟩
  · rw [changeAddress_eq]
    exact ⟨rfl, fun f hf => by simp [hf], fun j hj => by simp [Ne.symm hj], rfl, rfl⟩

/-! ### The Return Book's part (R88) -/

/-- A capacity of the ride has changed in DAY. -/
def State.recaps (s : State) (old new : RideConfig) : Prop := s.time.day = .day ∧ ¬(new.c = old.c ∧ new.p = old.p)

theorem updateRide_eq (r : Nat) (old new : RideConfig) (s : State) :
    (s.recaps old new → updateRide r old new s = (recomputeCaps r new (s.reconfigured r old new),
      (s.rideBook r).windows.any (Window.raised (s.computedCap new)))) ∧
    (¬s.recaps old new → updateRide r old new s = (s.reconfigured r old new, false)) := by
  obtain ⟨-, htime, -, hbook, -, -⟩ := reconfigured_eq s r old new
  have hupdate : updateRide r old new s =
      if (s.reconfigured r old new).time.day = .day ∧ ¬(new.c = old.c ∧ new.p = old.p) then
        (recomputeCaps r new (s.reconfigured r old new),
          ((s.reconfigured r old new).rideBook r).windows.any
            (Window.raised ((s.reconfigured r old new).computedCap new)))
      else (s.reconfigured r old new, false) := rfl
  have hcap : (s.reconfigured r old new).computedCap new = s.computedCap new := by
    rw [State.computedCap, State.computedCap, htime]
  rw [hupdate, htime, rideBook_congr (congrArg (·.rides) hbook), hcap]
  exact ⟨fun h => if_pos h, fun h => if_neg h⟩

theorem recompute_eq (v : Nat) (w : Window) :
    w.recompute v = if w.started then w else { w with cap := max v (w.issued + w.hold) } := rfl

theorem raised_any_iff (v : Nat) (ws : List Window) :
    ws.any (Window.raised v) = true ↔ ∃ w ∈ ws, w.started = false ∧ v < w.issued + w.hold := by
  simp only [List.any_eq_true, Window.raised, Bool.and_eq_true, Bool.not_eq_true', decide_eq_true_eq]

/-- The book of a ride whose capacities are computed anew. -/
def RideBook.recapped (v : Nat) (b : RideBook) : RideBook := { b with windows := b.windows.map (Window.recompute v) }

theorem recomputeCaps_placed (r : Nat) (c : RideConfig) (s : State) :
    Placed r (s.modBook r (RideBook.recapped (s.computedCap c))) (recomputeCaps r c s) := placed_judged r _

theorem recomputeCaps_passes (r : Nat) (c : RideConfig) (s : State) : PassesKept s (recomputeCaps r c s) := by
  constructor <;> simp [recomputeCaps]

/-- What a new configuration does to the Return Book of its ride, and what it leaves alone. -/
structure Recapped (r : Nat) (s : State) (st : RideState) (old new : RideConfig) (b : RideBook) (t : State) : Prop where
  placed : s.recaps old new ∧ st = .opened ∧ 0 < b.u →
    (t.rideBook r).windows = (b.place s.minute).windows ∧ (t.rideBook r).u = (b.place s.minute).u
  unplaced : ¬(s.recaps old new ∧ st = .opened ∧ 0 < b.u) →
    (t.rideBook r).windows = b.windows ∧ (t.rideBook r).u = b.u
  f : (t.rideBook r).f = (s.rideBook r).f
  others : OthersKept r s.book.rides t.book.rides
  passes : PassesKept s t
  kept : Judged (s.reconfigured r old new) t
  waiting : s.port.waiting = [] → t.port.waiting = []

theorem updateRide_recapped {r : Nat} {s : State} {u : RideUnit} {old new : RideConfig} {b : RideBook}
    (hu : s.units.find r = some u)
    (hb : s.recaps old new → b = (s.rideBook r).recapped (s.computedCap new))
    (hn : ¬s.recaps old new → b = s.rideBook r) :
    Recapped r s u.state old new b (updateRide r old new s).1 := by
  obtain ⟨hunits, htime, -, hbook, -, hport⟩ := reconfigured_eq s r old new
  obtain ⟨hrecap, hstand⟩ := updateRide_eq r old new s
  have hride := rideBook_congr (congrArg (·.rides) hbook) r
  by_cases hc : s.recaps old new
  · rw [hrecap hc]
    have hplaced := recomputeCaps_placed r new (s.reconfigured r old new)
    have hbooked : ((s.reconfigured r old new).modBook r (RideBook.recapped
        ((s.reconfigured r old new).computedCap new))).rideBook r = b := by
      rw [modBook_rideBook_of_empty _ r rfl, hride, hb hc, State.computedCap, State.computedCap, htime]
    have hfind : ((s.reconfigured r old new).modBook r (RideBook.recapped
        ((s.reconfigured r old new).computedCap new))).units.find r = some { u with config := new } := by
      simp [hunits, hu]
    have hrun := placedBook_eq hfind hbooked
    have hminute : ((s.reconfigured r old new).modBook r (RideBook.recapped
        ((s.reconfigured r old new).computedCap new))).minute = s.minute := by
      rw [State.minute, State.minute, State.modBook_time, htime]
    rw [hminute] at hrun
    refine ⟨fun h => ?_, fun h => ?_, ?_, ?_, ?_, (judged_modBook _ r _).trans hplaced.judged, fun h => ?_⟩
    · rw [if_pos h.2] at hrun
      exact ⟨hplaced.windows.trans (by rw [hrun]), hplaced.u.trans (by rw [hrun])⟩
    · rw [if_neg fun h' => h ⟨hc, h'⟩] at hrun
      exact ⟨hplaced.windows.trans (by rw [hrun]), hplaced.u.trans (by rw [hrun])⟩
    · rw [hplaced.f, hbooked, hb hc]
      rfl
    · refine othersKept_trans (othersKept_trans (othersKept_of_eq r (congrArg (·.rides) hbook)) ?_) hplaced.others
      exact modBook_others r _ _
    · exact passesKept_trans (passesKept_of_eq hbook) (recomputeCaps_passes r new _)
    · exact (moves_recomputeCaps r new _).waiting_nil (hport ▸ h)
  · rw [hstand hc]
    have hb := hn hc
    exact ⟨fun h => absurd h.1 hc, fun _ => by rw [hride, hb]; exact ⟨rfl, rfl⟩, by rw [hride],
      othersKept_of_eq r (congrArg (·.rides) hbook), passesKept_of_eq hbook, .refl _, fun h => hport ▸ h⟩

/-! ### The request (R21) -/

theorem serveConfride_stores {r : Nat} {f : RideFields} {s : State} {u : RideUnit} (hu : s.units.find r = some u)
    (hnone : s.confrideRefusal r false f false = none) :
    serveConfride r false f false s = ((updateRide r u.config (u.config.store (clampFields f)) s).1,
      .confride (doneOr (decide (clampFields f ≠ f) || (updateRide r u.config (u.config.store (clampFields f)) s).2))
        (some (u.config.store (clampFields f)))) := by
  simp only [serveConfride, hnone, Bool.false_eq_true, if_false, storeRide, hu]

theorem day_of_confrideRefusal_none {s : State} {r : Nat} {remove : Bool} {f : RideFields} {bad : Bool}
    (h : s.confrideRefusal r remove f bad = none) : s.time.day ≠ .opening := by
  intro hd
  rw [State.confrideRefusal, if_pos hd] at h
  cases h

theorem updateRide_raised (r : Nat) (old new : RideConfig) (s : State) : (updateRide r old new s).2 = true ↔
    s.recaps old new ∧ ∃ w ∈ (s.rideBook r).windows, w.started = false ∧ s.computedCap new < w.issued + w.hold := by
  obtain ⟨hrecap, hstand⟩ := updateRide_eq r old new s
  by_cases hc : s.recaps old new
  · rw [hrecap hc, raised_any_iff]
    simp [hc]
  · rw [hstand hc]
    simp [hc]

/-- Settles O19: the configuration is stored, the address is changed and the capacities computed anew where they are
other than before. -/
theorem confrideUpdates : Obligations.ConfrideUpdates := by
  intro tag r f s u fr hoff hu hfr hnone
  have hserve := serveConfride_stores (s := s.popInput) hu hnone
  have hraised := updateRide_raised r u.config (u.config.store (clampFields f)) s.popInput
  generalize u.config.store (clampFields f) = c at hserve hraised
  obtain ⟨b, hb⟩ : ∃ b, b = if s.time.day = .day ∧ ¬(c.c = u.config.c ∧ c.p = u.config.p) then
      (s.rideBook r).recapped (s.computedCap c) else s.rideBook r := ⟨_, rfl⟩
  have hbook := updateRide_recapped (s := s.popInput) (old := u.config) (new := c) (b := b) hu
    (fun h => hb.trans (if_pos h)) (fun h => hb.trans (if_neg h))
  obtain ⟨hunits, htime, hests, -, hboards, hport⟩ := reconfigured_eq s.popInput r u.config c
  obtain ⟨hline, hrecord, hothers, hlast, hsent⟩ := reconfigured_poller s.popInput r u.config c
  obtain ⟨t, hexec, ht⟩ := exec_answeredAs (c := .confride tag r f) rfl hoff
    ((gateServe_pass tag (.confride r false f false) s.popInput (.inl (day_of_confrideRefusal_none hnone))).trans
      (congrArg answered hserve)) (hbook.waiting (popInput_waiting hoff))
  have hkept := hbook.kept
  have hpoller := ht.poller.trans hkept.poller
  have hunits := (ht.units.trans hkept.units).trans hunits
  refine ⟨t, c, b, hexec, rfl, ?unit, ?field, ?book, fun h => ?placed, fun h => ?unplaced, ?f, ?line, ?last, ?sent,
    ?reply, ?units, ?records, ?rides, ?passes, ?ests, ?time, ?boards, ?port⟩
  case unit => rw [hunits]; simp [hu]
  case field => rw [hpoller]; exact hrecord fr hfr
  case book => rw [hb]; rfl
  case placed =>
    rw [ht.rideBook]
    exact hbook.placed ⟨⟨h.1, h.2.1⟩, h.2.2⟩
  case unplaced =>
    rw [ht.rideBook]
    exact hbook.unplaced fun ⟨⟨hd, hcp⟩, hst⟩ => h ⟨hd, hcp, hst⟩
  case f => rw [ht.rideBook]; exact hbook.f
  case line =>
    rw [hpoller, hline, State.popInput_poller]
    by_cases hsame : c.fieldAddress = u.config.fieldAddress <;> cases s.poller.line <;>
      simp [FieldLine.readdressed, FieldLine.abandon, hsame]
  case last => rw [hpoller]; exact hlast
  case sent => rw [hpoller]; exact hsent
  case reply =>
    have hcode : doneOr (decide (clampFields f ≠ f) || (updateRide r u.config c s.popInput).2) =
        if clampFields f ≠ f ∨ (s.time.day = .day ∧ ¬(c.c = u.config.c ∧ c.p = u.config.p) ∧
          ∃ w ∈ (s.rideBook r).windows, w.started = false ∧ s.computedCap c < w.issued + w.hold) then .clamped
        else .done := by
      refine if_congr ?_ rfl rfl
      rw [Bool.or_eq_true, decide_eq_true_eq, hraised]
      exact or_congr_right and_assoc
    rw [← hcode]
    exact ht.replied
  case units => rw [hunits]; exact fun j hj => by simp [Ne.symm hj]
  case records => rw [hpoller]; exact hothers
  case rides => rw [ht.book]; exact hbook.others
  case passes =>
    exact passesKept_trans (passesKept_trans (passesKept_of_eq (State.popInput_book s)) hbook.passes)
      (passesKept_of_eq ht.book)
  case ests => exact (ht.ests.trans hkept.ests).trans hests
  case time => exact (ht.time.trans hkept.time).trans htime
  case boards => exact (ht.boards.trans hkept.boards).trans hboards
  case port => exact portKept_trans (portKept_trans (portKept_of_eq hport) hkept.port) ht.port

end Sys2Proof.Machine
end

section
/-! The start of a window, the end of the grid, and the marks an out-of-service state leaves: O24. -/

namespace Sys2Proof.Machine

open Sys2Proof.Safety

theorem judgeSlots_late (r : Nat) (s : State) : (judgeSlots r s).book.late = s.book.late := by
  unfold judgeSlots
  split
  · rfl
  · simp

theorem passesKept_judgeSlots (r : Nat) (s : State) : PassesKept s (judgeSlots r s) := by
  constructor <;> simp

/-! ### The window events that start and end (R86) -/

/-- `t` is `s` with the book of ride `r` written as `b` and its SLOTS level judged. -/
structure SlotsJudged (r : Nat) (s : State) (b : RideBook) (t : State) : Prop where
  book : t.rideBook r = { b with slotsLevel := t.slotsHold r }
  others : OthersKept r s.book.rides t.book.rides
  passes : PassesKept s t
  late : t.book.late = s.book.late
  judged : Judged s t

/-- SLOTS judged after a write of the ride's book. -/
theorem slotsJudged_modBook {r : Nat} {s : State} {b : RideBook} (hb : s.book.rides.find r = some b)
    (f : RideBook → RideBook) : SlotsJudged r s (f b) (judgeSlots r (s.modBook r f)) := by
  have hfind : (s.modBook r f).book.rides.find r = some (f b) := by simp [hb]
  refine ⟨rideBook_of_find (judgeSlots_level hfind), ?_, ?_, judgeSlots_late r _,
    (judged_modBook s r f).trans (judged_judgeSlots r _)⟩
  · exact othersKept_trans (modBook_others r f s) (judgeSlots_levels r _).others
  · have hmod : PassesKept s (s.modBook r f) := ⟨rfl, rfl, rfl, rfl, rfl, rfl⟩
    exact passesKept_trans hmod (passesKept_judgeSlots r _)

/-- The book of a ride once window `i` has started. -/
def RideBook.started (i : Nat) (out : Bool) (b : RideBook) : RideBook :=
  { b with windows := b.windows.modify i fun w =>
    { w with started := true, interrupted := w.interrupted || out } }

theorem windowStart_resolved {i r : Nat} {s : State} {w : Window} {u : RideUnit}
    (hw : (s.rideBook r).windows[i]? = some w) (hu : s.units.find r = some u) (hres : w.resolved = true) :
    windowStart i r s = s := by
  simp only [windowStart, hw, hu, hres, if_true]

theorem windowStart_open {i r : Nat} {s : State} {w : Window} {u : RideUnit}
    (hw : (s.rideBook r).windows[i]? = some w) (hu : s.units.find r = some u) (hres : w.resolved = false) :
    windowStart i r s = judgeSlots r (s.modBook r (RideBook.started i (!u.state.inService))) := by
  simp only [windowStart, hw, hu, hres, Bool.false_eq_true, if_false]
  rfl

theorem take_windows_single {d : Delivery} {e : DayEvent} (h : d.events = [e]) (r : Nat) (s : State) :
    take d s (.windows r) = bookEvent r s e := by
  simp only [take, h, List.foldl_cons, List.foldl_nil]

theorem inService_iff (st : RideState) :
    st.inService = true ↔ st = .opened ∨ (∃ c, st = .held c) ∨ st = .closing := by
  cases st <;> simp [RideState.inService]

theorem slotsHold_iff {s : State} {r : Nat} {u : RideUnit} (hu : s.units.find r = some u) :
    s.slotsHold r = true ↔ (u.state = .opened ∨ (∃ c, u.state = .held c) ∨ u.state = .closing) ∧
      freeSum (s.rideBook r) s.minute < s.time.params.slotLow := by
  simp only [State.slotsHold, hu, Bool.and_eq_true, inService_iff, decide_eq_true_eq]

theorem freeSum_none {b : RideBook} {m : Nat} (h : ∀ i, ¬LeadWindow b m i) : freeSum b m = 0 := by
  rw [freeSum, (leadIndex_none_iff b m).mpr h]

theorem freeSum_some {b : RideBook} {m i : Nat} (h : LeadWindow b m i) : freeSum b m =
    ((((b.windows.drop i).take 4).filter fun w => !w.resolved).map fun w => w.cap - w.issued - w.hold).sum := by
  rw [freeSum, (leadIndex_some_iff b m i).mpr h]
  rfl

/-! ### The marks of an out-of-service state (R91) -/

theorem meetsGraceEnd_iff (s : State) (rep : StateReport) : s.meetsGraceEnd rep = true ↔
    rep.new.inService = false ∧ ∃ c, rep.since = some c ∧ c % 60 = 59 ∧
      ∃ w ∈ (s.rideBook rep.ride).windows, w.resolved = false ∧ w.graceEnd = c / 60 := by
  unfold State.meetsGraceEnd
  cases rep.since <;> simp

theorem meetsGraceEnd_congr {s t : State} (h : t.book = s.book) (rep : StateReport) :
    t.meetsGraceEnd rep = s.meetsGraceEnd rep := by
  rw [State.meetsGraceEnd, State.meetsGraceEnd, rideBook_congr (congrArg (·.rides) h)]

/-- `t` is `s` with the windows of ride `r` marked for minute `m` and the book as it was else, but for what is late. -/
structure MarkedBook (r m : Nat) (s t : State) : Prop where
  windows : (t.rideBook r).windows = (s.rideBook r).windows.map (marked m)
  f : (t.rideBook r).f = (s.rideBook r).f
  u : (t.rideBook r).u = (s.rideBook r).u
  others : OthersKept r s.book.rides t.book.rides
  passes : PassesKept s t

theorem bookHears_late {new : RideState} (r : Nat) (since : Option Nat) (s : State) (h : new.inService = false) :
    (bookHears r new since s).book.late = s.book.late := by
  have hopen : new ≠ .opened := by
    rintro rfl
    cases h
  rw [bookHears_eq, bookTakes, h, if_neg hopen, if_neg Bool.false_ne_true, judgeSlots_late]
  cases since <;> rfl

theorem bookHears_marked {new : RideState} (r c : Nat) (s : State) (h : new.inService = false) :
    MarkedBook r (c / 60) s (bookHears r new (some c) s) := by
  have hlevels := bookHears_out r (some c) s h
  have hbook := markWindows_rideBook r (some c) s
  have hheard := bookHears_heard r new (some c) s
  refine ⟨?_, ?_, ?_, hheard.others, hheard.passes⟩
  · rw [hlevels.windows, hbook, ← funext (window_mark (c / 60))]
    rfl
  · rw [hlevels.f, hbook, marked_f]
  · rw [hlevels.u, hbook, marked_u]

theorem MarkedBook.of_book {r m : Nat} {s x t : State} (h : MarkedBook r m x t) (hr : x.book.rides = s.book.rides)
    (hp : PassesKept s x) : MarkedBook r m s t := by
  have hb := rideBook_congr hr r
  exact ⟨by rw [h.windows, hb], by rw [h.f, hb], by rw [h.u, hb], hr ▸ h.others, passesKept_trans hp h.passes⟩

/-- A report to the Return Book that nothing late precedes is taken, or left where it meets a grace end (R91). -/
theorem reportToBook_out {rep : StateReport} {c : Nat} {y : State} (hout : rep.new.inService = false)
    (hsince : rep.since = some c) (hlate : y.book.late = []) :
    (MarkedBook rep.ride (c / 60) y (reportToBook rep y) ∧ (reportToBook rep y).book.late = []) ∨
    (y.meetsGraceEnd rep = true ∧ (reportToBook rep y).book = { y.book with late := [rep] }) := by
  have hears : ∀ x : State, x.book = y.book →
      MarkedBook rep.ride (c / 60) y (bookHears rep.ride rep.new rep.since
        (takeLate (fun z => decide (z.ride = rep.ride)) x)) ∧
      (bookHears rep.ride rep.new rep.since (takeLate (fun z => decide (z.ride = rep.ride)) x)).book.late = [] := by
    intro x hx
    have hnone : x.book.late = [] := by rw [hx, hlate]
    rw [takeLate_none _ x hnone, hsince]
    exact ⟨(bookHears_marked rep.ride c x hout).of_book (congrArg (·.rides) hx) (passesKept_of_eq hx),
      (bookHears_late rep.ride (some c) x hout).trans hnone⟩
  cases hm : y.meetsGraceEnd rep with
  | false =>
    rw [reportToBook_atOnce rep y hm]
    exact .inl (hears y rfl)
  | true =>
    rcases reportToBook_meets rep y hm with ⟨-, heq⟩ | ⟨-, heq⟩
    · refine .inr ⟨rfl, ?_⟩
      rw [heq, hlate]
      rfl
    · rw [heq]
      exact .inl (hears _ (takeGraceOrder_keeps y).2.2.2.2.1)

/-- Settles O24: a start or an end of the grid is one write of the ride's book with SLOTS judged after it; a report of a
state out of service marks the windows, now or with the late reports. -/
theorem windowStartsAndMarks : Obligations.WindowStartsAndMarks := by
  refine ⟨?start, ?ended, fun s r u hu => slotsHold_iff hu, fun b m => ⟨freeSum_none, fun i hi => freeSum_some hi⟩,
    ?change, meetsGraceEnd_iff, ?late⟩
  case start =>
    intro d r i s t u w hevents hu hw ht
    have htake : t = windowStart i r s := ht.trans (take_windows_single hevents r s)
    refine ⟨fun hres => htake.trans (windowStart_resolved hw hu hres), fun hres => ?_⟩
    have hj := slotsJudged_modBook (find_of_window hw) (RideBook.started i (!u.state.inService))
    rw [← windowStart_open hw hu hres, ← htake] at hj
    exact ⟨by rw [hj.book]; rfl, by rw [hj.book], by rw [hj.book]; rfl, by rw [hj.book]; rfl, hj.others, hj.passes,
      hj.late, hj.judged.time, hj.judged.units, hj.judged.ests, hj.judged.poller, hj.judged.boards, hj.judged.port⟩
  case ended =>
    intro d r s t u b hevents hu hb ht
    have hj := slotsJudged_modBook hb fun b => { b with gridEnded := true }
    rw [show judgeSlots r (s.modBook r fun b => { b with gridEnded := true }) = t from
      (take_windows_single hevents r s).symm.trans ht.symm] at hj
    refine ⟨hj.book, fun m i hi => ?_, hj.others, hj.passes, hj.late, hj.judged.time, hj.judged.units,
      hj.judged.ests, hj.judged.poller, hj.judged.boards, hj.judged.port⟩
    obtain ⟨hended, -⟩ := hi
    rw [hj.book] at hended
    cases hended
  case change =>
    intro r new s t u rep hu hout hrun hlate hrep ht
    have hclock : s.clockNow = some s.time.clock := by simp only [State.clockNow, hrun]
    have hreport : stateReport r u new s = rep := by rw [hrep, stateReport, hclock]
    obtain ⟨y, hybook, -, -, hbook⟩ := changeState_book new hu
    rw [← ht, hreport] at hbook
    have hride := fun r => rideBook_congr (s := t) (congrArg (·.rides) hbook) r
    subst hrep
    have hpasses : PassesKept (reportToBook
        { ride := r, prev := u.state, new := new, since := some s.time.clock } y) t := passesKept_of_eq hbook
    have hlate' : y.book.late = [] := by rw [hybook, hlate]
    rcases reportToBook_out (rep := { ride := r, prev := u.state, new := new, since := some s.time.clock })
      hout rfl hlate' with ⟨hmarked, hnone⟩ | ⟨hmeets, hleft⟩
    · have hm := hmarked.of_book (s := s) (congrArg (·.rides) hybook) (passesKept_of_eq hybook)
      exact ⟨.inl ⟨by rw [hride]; exact hm.windows, by rw [hbook]; exact hnone⟩, by rw [hride]; exact hm.f,
        by rw [hride]; exact hm.u, by rw [hbook]; exact hm.others, passesKept_trans hm.passes hpasses⟩
    · rw [hleft, hybook] at hbook
      rw [meetsGraceEnd_congr hybook] at hmeets
      have hsame := rideBook_congr (s := t) (t := s) (congrArg (·.rides) hbook) r
      exact ⟨.inr ⟨hmeets, by rw [hsame], by rw [hbook]⟩, by rw [hsame], by rw [hsame],
        by rw [hbook]; exact othersKept_refl _ _, by constructor <;> rw [hbook]⟩
  case late =>
    intro d c s t rep hlate hout hsince ht
    have htake : t = bookHears rep.ride rep.new (some c) { s with book := { s.book with late := [] } } := by
      rw [ht, ← hsince]
      exact takeLate_one _ s rep hlate rfl
    have hm := (bookHears_marked rep.ride c { s with book := { s.book with late := [] } } hout).of_book (s := s) rfl
      ⟨rfl, rfl, rfl, rfl, rfl, rfl⟩
    rw [← htake] at hm
    refine ⟨hm.windows, ?_, hm.others, hm.passes, ?_, ?_⟩
    · rw [htake, bookHears_late _ _ _ hout]
    · rw [htake]; simp
    · rw [htake]; simp

end Sys2Proof.Machine
end

section
/-! How the passes on a window are disposed of, and what the resolution of a window leaves: O25. -/

namespace Sys2Proof.Machine

open Sys2Proof.Safety

/-! ### What only the book is changed by -/

/-- `t` is `s` but for the book. -/
def BookOnly (s t : State) : Prop := t = { s with book := t.book }

theorem BookOnly.refl (s : State) : BookOnly s s := rfl

theorem BookOnly.trans {s t u : State} (h : BookOnly s t) (g : BookOnly t u) : BookOnly s u := by
  unfold BookOnly at *
  rw [h] at g
  exact g

theorem BookOnly.foldl {α : Type} {f : State → α → State} (h : ∀ s x, BookOnly s (f s x)) (xs : List α) (s : State) :
    BookOnly s (xs.foldl f s) := by
  induction xs generalizing s with
  | nil => exact .refl s
  | cons x xs ih => exact (h s x).trans (ih (f s x))

section

variable {s t : State} (h : BookOnly s t)
include h

theorem BookOnly.time : t.time = s.time := congrArg (·.time) h
theorem BookOnly.units : t.units = s.units := congrArg (·.units) h
theorem BookOnly.ests : t.ests = s.ests := congrArg (·.ests) h
theorem BookOnly.poller : t.poller = s.poller := congrArg (·.poller) h
theorem BookOnly.boards : t.boards = s.boards := congrArg (·.boards) h
theorem BookOnly.port : t.port = s.port := congrArg (·.port) h
theorem BookOnly.minute : t.minute = s.minute := congrArg (·.clock / 60) h.time

end

/-! ### One pass is converted or retired (R92, R103, R105, R106) -/

theorem convertPass_none {r n : Nat} {s : State} (h : s.book.passes.find n = none) : convertPass r n s = s := by
  rw [convertPass, h]

theorem convertPass_some {r n : Nat} {s : State} {p : Pass} (h : s.book.passes.find n = some p) : convertPass r n s =
    (s.modPass n fun p => { p with state := .flex, flexAt := some s.minute }).modBook r fun b =>
      { b with f := b.f + p.remaining, u := b.u + p.remaining } := by
  rw [convertPass, h]

theorem bookOnly_convertPass (r n : Nat) (s : State) : BookOnly s (convertPass r n s) := by
  cases h : s.book.passes.find n with
  | none => rw [convertPass_none h]; exact .refl s
  | some p => rw [convertPass_some h]; rfl

theorem retirePass_none {n : Nat} (st : PassState) {s : State} (h : s.book.passes.find n = none) :
    retirePass n st s = s := by
  rw [retirePass, h]

theorem retirePass_some {n : Nat} (st : PassState) {s : State} {p : Pass} (h : s.book.passes.find n = some p) :
    retirePass n st s = { s with book := { s.book with
      passes := s.book.passes.update n fun p => { p with state := st, retiredAt := some s.minute }
      accounts := s.book.accounts.update p.account fun a => { a with active := a.active.filter (· ≠ n) }
      retired := s.book.retired ++ [n]
      activeCount := s.book.activeCount - 1 } } := by
  rw [retirePass, h]

theorem bookOnly_retirePass (n : Nat) (st : PassState) (s : State) : BookOnly s (retirePass n st s) := by
  cases h : s.book.passes.find n with
  | none => rw [retirePass_none st h]; exact .refl s
  | some p => rw [retirePass_some st h]; rfl

/-- A pass converted to FLEX at a minute. -/
def Pass.flexed (m : Nat) (p : Pass) : Pass := { p with state := .flex, flexAt := some m }

/-- A pass retired in a state at a minute. -/
def Pass.retired (st : PassState) (m : Nat) (p : Pass) : Pass := { p with state := st, retiredAt := some m }

theorem convertPass_find (r n : Nat) (s : State) (k : Nat) : (convertPass r n s).book.passes.find k =
    (s.book.passes.find k).map fun p => if k = n then p.flexed s.minute else p := by
  cases h : s.book.passes.find n with
  | none =>
    rw [convertPass_none h]
    by_cases hk : k = n
    · rw [hk, h]; rfl
    · simp [hk]
  | some p =>
    rw [convertPass_some h]
    by_cases hk : k = n
    · subst hk
      simp [State.modPass, h, Pass.flexed]
    · simp [State.modPass, hk, Ne.symm hk]

theorem retirePass_find (n : Nat) (st : PassState) (s : State) (k : Nat) : (retirePass n st s).book.passes.find k =
    (s.book.passes.find k).map fun p => if k = n then p.retired st s.minute else p := by
  cases h : s.book.passes.find n with
  | none =>
    rw [retirePass_none st h]
    by_cases hk : k = n
    · rw [hk, h]; rfl
    · simp [hk]
  | some p =>
    rw [retirePass_some st h]
    by_cases hk : k = n
    · subst hk
      simp [h, Pass.retired]
    · simp [hk, Ne.symm hk]

/-- What a pass still admits; nothing if it is not held. -/
def State.remainingOf (s : State) (n : Nat) : Nat := ((s.book.passes.find n).map (·.remaining)).getD 0

/-- The book of a ride with `n` more guests outside windows. -/
def RideBook.withFlex (n : Nat) (b : RideBook) : RideBook := { b with f := b.f + n, u := b.u + n }

theorem withFlex_withFlex (m n : Nat) (b : RideBook) : (b.withFlex m).withFlex n = b.withFlex (m + n) := by
  simp [RideBook.withFlex, Nat.add_assoc]

theorem convertPass_rideBook {r : Nat} (n : Nat) {s : State} {b : RideBook} (hb : s.book.rides.find r = some b) :
    (convertPass r n s).book.rides.find r = some (b.withFlex (s.remainingOf n)) := by
  cases h : s.book.passes.find n with
  | none =>
    rw [convertPass_none h, hb, State.remainingOf, h]
    rfl
  | some p =>
    rw [convertPass_some h, State.remainingOf, h]
    simp [State.modPass, hb, RideBook.withFlex]

/-! ### All the passes on a window (R92) -/

/-- What is left of the book's other fields when passes are converted. -/
theorem foldl_convert_keeps (r : Nat) (ns : List Nat) (s : State) :
    BookOnly s (ns.foldl (fun s n => convertPass r n s) s) ∧
    OthersKept r s.book.rides (ns.foldl (fun s n => convertPass r n s) s).book.rides ∧
    (ns.foldl (fun s n => convertPass r n s) s).book.late = s.book.late ∧
    (ns.foldl (fun s n => convertPass r n s) s).book.retired = s.book.retired ∧
    (ns.foldl (fun s n => convertPass r n s) s).book.accounts = s.book.accounts ∧
    (ns.foldl (fun s n => convertPass r n s) s).book.activeCount = s.book.activeCount := by
  refine ⟨.foldl (fun s n => bookOnly_convertPass r n s) ns s, ?_, ?_, ?_, ?_, ?_⟩
  · induction ns generalizing s with
    | nil => exact othersKept_refl _ _
    | cons n ns ih =>
      refine othersKept_trans ?_ (ih (convertPass r n s))
      unfold convertPass
      split
      · exact othersKept_refl _ _
      · exact modBook_others r _ _
  · refine foldl_keeps (fun s => s.book.late) _ (fun s n => ?_) _ _
    unfold convertPass
    split <;> rfl
  · exact foldl_keeps (fun s => s.book.retired) _ (fun s n => by simp) _ _
  · exact foldl_keeps (fun s => s.book.accounts) _ (fun s n => by simp) _ _
  · exact foldl_keeps (fun s => s.book.activeCount) _ (fun s n => by simp) _ _

theorem foldl_convert_find (r : Nat) (ns : List Nat) (s : State) (k : Nat) :
    (ns.foldl (fun s n => convertPass r n s) s).book.passes.find k =
      (s.book.passes.find k).map fun p => if k ∈ ns then p.flexed s.minute else p := by
  induction ns generalizing s with
  | nil => simp
  | cons n ns ih =>
    rw [List.foldl_cons, ih, convertPass_find, (bookOnly_convertPass r n s).minute, Option.map_map]
    refine congrArg (Option.map · _) (funext fun p => ?_)
    by_cases hk : k = n <;> by_cases hm : k ∈ ns <;> simp [hk, hm, Pass.flexed]

theorem convertPass_remainingOf (r n : Nat) (s : State) : (convertPass r n s).remainingOf = s.remainingOf := by
  funext k
  rw [State.remainingOf, State.remainingOf, convertPass_find, Option.map_map]
  refine congrArg (fun x : Option Nat => x.getD 0) (congrArg (Option.map · _) (funext fun p => ?_))
  by_cases hk : k = n <;> simp [hk, Pass.flexed]

theorem foldl_convert_rideBook {r : Nat} (ns : List Nat) {s : State} {b : RideBook}
    (hb : s.book.rides.find r = some b) : (ns.foldl (fun s n => convertPass r n s) s).book.rides.find r =
      some (b.withFlex (ns.map s.remainingOf).sum) := by
  induction ns generalizing s b with
  | nil => exact hb
  | cons n ns ih =>
    rw [List.foldl_cons, ih (convertPass_rideBook n hb), convertPass_remainingOf, withFlex_withFlex, List.map_cons,
      List.sum_cons]

theorem foldl_retire_keeps (st : PassState) (ns : List Nat) (s : State) :
    BookOnly s (ns.foldl (fun s n => retirePass n st s) s) ∧
    (ns.foldl (fun s n => retirePass n st s) s).book.rides = s.book.rides ∧
    (ns.foldl (fun s n => retirePass n st s) s).book.late = s.book.late := by
  refine ⟨.foldl (fun s n => bookOnly_retirePass n st s) ns s, ?_, ?_⟩
  · exact foldl_keeps (fun s => s.book.rides) _ (fun s n => by simp) _ _
  · refine foldl_keeps (fun s => s.book.late) _ (fun s n => ?_) _ _
    unfold retirePass
    split <;> rfl

theorem foldl_retire_find (st : PassState) (ns : List Nat) (s : State) (k : Nat) :
    (ns.foldl (fun s n => retirePass n st s) s).book.passes.find k =
      (s.book.passes.find k).map fun p => if k ∈ ns then p.retired st s.minute else p := by
  induction ns generalizing s with
  | nil => simp
  | cons n ns ih =>
    rw [List.foldl_cons, ih, retirePass_find, (bookOnly_retirePass n st s).minute, Option.map_map]
    refine congrArg (Option.map · _) (funext fun p => ?_)
    by_cases hk : k = n <;> by_cases hm : k ∈ ns <;> simp [hk, hm, Pass.retired]

theorem retirePass_find_ne_none {n k : Nat} (st : PassState) {s : State} (h : s.book.passes.find k ≠ none) :
    (retirePass n st s).book.passes.find k ≠ none := by
  rw [retirePass_find]
  simpa using h

/-- Passes that are held join the retirement queue, and the active count falls by their number (R105, R106). -/
theorem foldl_retire_counts (st : PassState) (ns : List Nat) {s : State} (h : ∀ n ∈ ns, s.book.passes.find n ≠ none) :
    (ns.foldl (fun s n => retirePass n st s) s).book.retired = s.book.retired ++ ns ∧
    (ns.foldl (fun s n => retirePass n st s) s).book.activeCount = s.book.activeCount - ns.length := by
  induction ns generalizing s with
  | nil => exact ⟨(List.append_nil _).symm, rfl⟩
  | cons n ns ih =>
    obtain ⟨p, hp⟩ := Option.ne_none_iff_exists'.mp (h n List.mem_cons_self)
    obtain ⟨hretired, hactive⟩ := ih (s := retirePass n st s) fun k hk =>
      retirePass_find_ne_none st (h k (List.mem_cons_of_mem n hk))
    have hstep := retirePass_some st hp
    rw [List.foldl_cons, hretired, hactive, hstep, List.length_cons]
    exact ⟨by simp, by dsimp only; omega⟩

/-- An account of the retired pass no longer lists it, and no account lists more than before (R108). -/
theorem retirePass_account {n : Nat} (st : PassState) {s : State} {k : Nat} {a : Account}
    (h : (retirePass n st s).book.accounts.find k = some a) :
    ∃ a', s.book.accounts.find k = some a' ∧ (∀ m ∈ a.active, m ∈ a'.active) ∧
      ∀ p, s.book.passes.find n = some p → p.account = k → n ∉ a.active := by
  cases hp : s.book.passes.find n with
  | none =>
    rw [retirePass_none st hp] at h
    exact ⟨a, h, fun m hm => hm, fun p hp' => nomatch hp'⟩
  | some p =>
    rw [retirePass_some st hp] at h
    simp only [Table.find_update] at h
    split at h
    next hk =>
      obtain ⟨a', ha', rfl⟩ := Option.map_eq_some_iff.mp h
      exact ⟨a', ha', fun m hm => (List.mem_filter.mp hm).1, fun _ _ _ hm => by simpa using (List.mem_filter.mp hm).2⟩
    next hk => exact ⟨a, h, fun m hm => hm, fun q hq hqk => absurd (Option.some.inj hq ▸ hqk) hk⟩

theorem foldl_retire_account (st : PassState) (ns : List Nat) {s : State} {k : Nat} {a : Account}
    (h : (ns.foldl (fun s n => retirePass n st s) s).book.accounts.find k = some a) :
    ∃ a', s.book.accounts.find k = some a' ∧ (∀ m ∈ a.active, m ∈ a'.active) ∧
      ∀ n ∈ ns, ∀ p, s.book.passes.find n = some p → p.account = k → n ∉ a.active := by
  induction ns generalizing s with
  | nil => exact ⟨a, h, fun m hm => hm, fun n hn => absurd hn List.not_mem_nil⟩
  | cons n ns ih =>
    obtain ⟨a1, ha1, hsub1, hgone1⟩ := ih h
    obtain ⟨a0, ha0, hsub0, hgone0⟩ := retirePass_account st ha1
    refine ⟨a0, ha0, fun m hm => hsub0 m (hsub1 m hm), fun k' hk' p hp hpk => ?_⟩
    rcases List.mem_cons.mp hk' with rfl | hk'
    · exact fun hm => hgone0 p hp hpk (hsub1 _ hm)
    · have hfind : (retirePass n st s).book.passes.find k' =
          some (if k' = n then p.retired st s.minute else p) := by rw [retirePass_find, hp, Option.map_some]
      refine hgone1 k' hk' _ hfind ?_
      split
      · exact hpk
      · exact hpk

end Sys2Proof.Machine
end

section
/-! The resolution of windows: O25. -/

namespace Sys2Proof.Machine

open Sys2Proof.Safety

/-! ### Which windows are resolved (R92, R93) -/

theorem modify_settle_resolved (ws : List Window) (i : Nat) :
    (ws.modify i Window.settle).map (·.resolved) = (ws.map (·.resolved)).set i true := by
  refine List.ext_getElem? fun j => ?_
  rw [List.getElem?_map, List.getElem?_modify, List.getElem?_set, List.length_map, List.getElem?_map]
  by_cases hij : i = j
  · subst hij
    cases hw : ws[i]? with
    | none =>
      have hlen := List.getElem?_eq_none_iff.mp hw
      simp [Nat.not_lt.mpr hlen]
    | some w =>
      have hlen := (List.getElem?_eq_some_iff.mp hw).1
      simp [hlen, Window.settle]
  · simp [hij]

theorem set_true_self {fs : List Bool} {i : Nat} (h : fs[i]? = none ∨ fs[i]? = some true) : fs.set i true = fs := by
  refine List.ext_getElem? fun j => ?_
  rw [List.getElem?_set]
  split
  next hij =>
    subst hij
    rcases h with h | h
    · rw [h, if_neg (Nat.not_lt.mpr (List.getElem?_eq_none_iff.mp h))]
    · rw [h, if_pos (List.getElem?_eq_some_iff.mp h).1]
  next => rfl

theorem foldl_set_true (js : List Nat) (fs : List Bool) {j : Nat} {x : Bool}
    (hj : j ∈ js ∨ ∀ y, fs[j]? = some y → y = true) (hx : (js.foldl (fun fs j => fs.set j true) fs)[j]? = some x) :
    x = true := by
  induction js generalizing fs with
  | nil => exact hj.elim (fun h => absurd h List.not_mem_nil) fun h => h x hx
  | cons k js ih =>
    refine ih (fs.set k true) ?_ hx
    by_cases hkj : k = j
    · refine .inr fun y hy => ?_
      rw [hkj, List.getElem?_set, if_pos rfl] at hy
      split at hy
      · exact (Option.some.inj hy).symm
      · cases hy
    · rw [List.getElem?_set_ne hkj]
      exact hj.imp_left fun h => (List.mem_cons.mp h).resolve_left (Ne.symm hkj)

/-! ### The disposal of a window (R92) -/

/-- The guests a resolved window leaves outside windows: those of its passes, where it was interrupted. -/
def State.leftOver (s : State) (w : Window) : Nat := if w.interrupted then (w.passes.map s.remainingOf).sum else 0

/-- The book of a ride whose window `i` has been settled, with `n` guests left over. -/
def RideBook.settled (i n : Nat) (b : RideBook) : RideBook :=
  { b.withFlex n with windows := b.windows.modify i Window.settle }

/-- The passes on a window, converted or expired. -/
def disposePasses (r : Nat) (w : Window) (s : State) : State :=
  if w.interrupted then w.passes.foldl (fun s n => convertPass r n s) s
  else w.passes.foldl (fun s n => retirePass n .expired s) s

theorem disposeWindow_eq (r i : Nat) (w : Window) (s : State) :
    disposeWindow r i w s = (disposePasses r w s).modWindow r i Window.settle := rfl

theorem disposePasses_interrupted {r : Nat} {w : Window} (s : State) (h : w.interrupted = true) :
    disposePasses r w s = w.passes.foldl (fun s n => convertPass r n s) s := if_pos h

theorem disposePasses_kept {r : Nat} {w : Window} (s : State) (h : w.interrupted = false) :
    disposePasses r w s = w.passes.foldl (fun s n => retirePass n .expired s) s := by
  rw [disposePasses, h, if_neg Bool.false_ne_true]

theorem disposePasses_keeps (r : Nat) (w : Window) (s : State) :
    BookOnly s (disposePasses r w s) ∧ OthersKept r s.book.rides (disposePasses r w s).book.rides ∧
    (disposePasses r w s).book.late = s.book.late := by
  cases h : w.interrupted with
  | true =>
    rw [disposePasses_interrupted s h]
    obtain ⟨honly, hothers, hlate, -⟩ := foldl_convert_keeps r w.passes s
    exact ⟨honly, hothers, hlate⟩
  | false =>
    rw [disposePasses_kept s h]
    obtain ⟨honly, hrides, hlate⟩ := foldl_retire_keeps .expired w.passes s
    exact ⟨honly, othersKept_of_eq r hrides, hlate⟩

theorem disposePasses_rideBook {r : Nat} {s : State} {b : RideBook} (w : Window) (hb : s.book.rides.find r = some b) :
    (disposePasses r w s).book.rides.find r = some (b.withFlex (s.leftOver w)) := by
  cases h : w.interrupted with
  | true =>
    rw [disposePasses_interrupted s h, foldl_convert_rideBook w.passes hb, State.leftOver, if_pos h]
  | false =>
    rw [disposePasses_kept s h, (foldl_retire_keeps .expired w.passes s).2.1, hb, State.leftOver, h,
      if_neg Bool.false_ne_true]
    rfl

theorem disposePasses_find (r : Nat) (w : Window) (s : State) (k : Nat) :
    (disposePasses r w s).book.passes.find k = (s.book.passes.find k).map fun p =>
      if k ∈ w.passes then if w.interrupted then p.flexed s.minute else p.retired .expired s.minute else p := by
  cases h : w.interrupted with
  | true => simp only [disposePasses_interrupted s h, foldl_convert_find, if_true]
  | false => simp only [disposePasses_kept s h, foldl_retire_find, Bool.false_eq_true, if_false]

/-! ### The resolution of one window (R92, R94) -/

/-- Placement after the disposal, where a pass was converted. -/
def placeDisposed (r i : Nat) (w : Window) (s : State) : State :=
  if w.interrupted ∧ w.passes ≠ [] then place r (disposeWindow r i w s) else disposeWindow r i w s

theorem settleWindow_eq (r i : Nat) (w : Window) (s : State) :
    settleWindow r i w s = judgeSlots r (placeDisposed r i w s) := rfl

/-- The book of ride `r` once its window `i`, which is `w`, is settled, and placement has run where it does. -/
def State.settledBook (s : State) (r i : Nat) (w : Window) : RideBook :=
  if w.interrupted = true ∧ w.passes ≠ [] ∧ (s.units.find r).map (·.state) = some .opened ∧
      0 < ((s.rideBook r).settled i (s.leftOver w)).u then
    ((s.rideBook r).settled i (s.leftOver w)).place s.minute
  else (s.rideBook r).settled i (s.leftOver w)

/-- `y` is `s` with window `i` of ride `r`, which is `w`, settled and SLOTS judged. -/
structure Settled (r i : Nat) (w : Window) (s y : State) : Prop where
  found : y.book.rides.find r = some { s.settledBook r i w with slotsLevel := y.slotsHold r }
  others : OthersKept r s.book.rides y.book.rides
  late : y.book.late = s.book.late
  passes : y.book.passes = (disposePasses r w s).book.passes
  retired : y.book.retired = (disposePasses r w s).book.retired
  accounts : y.book.accounts = (disposePasses r w s).book.accounts
  activeCount : y.book.activeCount = (disposePasses r w s).book.activeCount
  time : y.time = s.time
  units : y.units = s.units
  ests : y.ests = s.ests
  poller : y.poller = s.poller
  port : PortKept s y

theorem place_late (r : Nat) (s : State) : (place r s).book.late = s.book.late := by
  unfold place
  split
  · rfl
  · split <;> rfl

theorem place_found {r : Nat} {s : State} {b : RideBook} (hb : s.book.rides.find r = some b) :
    (place r s).book.rides.find r = some (s.placedBook r) := by
  have hplaced := place_placedBook r s
  cases hf : (place r s).book.rides.find r with
  | some b' => rw [← hplaced, rideBook_of_find hf]
  | none =>
    exfalso
    unfold place at hf
    split at hf
    · rw [hb] at hf; cases hf
    · split at hf
      · simp [hb] at hf
      · rw [hb] at hf; cases hf

theorem disposeWindow_found {r : Nat} {s : State} (i : Nat) (w : Window)
    (hb : s.book.rides.find r = some (s.rideBook r)) :
    (disposeWindow r i w s).book.rides.find r = some ((s.rideBook r).settled i (s.leftOver w)) := by
  rw [disposeWindow_eq, State.modWindow]
  simp [disposePasses_rideBook w hb, RideBook.settled, RideBook.withFlex]

theorem placeDisposed_found {r : Nat} {s : State} (i : Nat) (w : Window)
    (hb : s.book.rides.find r = some (s.rideBook r)) :
    (placeDisposed r i w s).book.rides.find r = some (s.settledBook r i w) := by
  have hfound := disposeWindow_found i w hb
  obtain ⟨honly, -, -⟩ := disposePasses_keeps r w s
  have hunits : (disposeWindow r i w s).units = s.units := honly.units
  have hminute : (disposeWindow r i w s).minute = s.minute := honly.minute
  unfold placeDisposed State.settledBook
  by_cases hc : w.interrupted = true ∧ w.passes ≠ []
  · rw [if_pos hc, place_found hfound, State.placedBook, hunits, hminute, rideBook_of_find hfound]
    exact congrArg some (if_congr ⟨fun h => ⟨hc.1, hc.2, h⟩, fun h => h.2.2⟩ rfl rfl)
  · rw [if_neg hc, hfound, if_neg fun h => hc ⟨h.1, h.2.1⟩]

/-- What placement and the disposal leave of the rest. -/
theorem placeDisposed_keeps (r i : Nat) (w : Window) (s : State) :
    BookOnly s (placeDisposed r i w s) ∧ OthersKept r s.book.rides (placeDisposed r i w s).book.rides ∧
    (placeDisposed r i w s).book.late = s.book.late ∧
    PassesKept (disposePasses r w s) (placeDisposed r i w s) := by
  obtain ⟨honly, hothers, hlate⟩ := disposePasses_keeps r w s
  have hdispose : BookOnly s (disposeWindow r i w s) := honly.trans rfl
  have hmod : OthersKept r s.book.rides (disposeWindow r i w s).book.rides :=
    othersKept_trans hothers (modBook_others r _ (disposePasses r w s))
  have hpasses : PassesKept (disposePasses r w s) (disposeWindow r i w s) := ⟨rfl, rfl, rfl, rfl, rfl, rfl⟩
  unfold placeDisposed
  split
  · refine ⟨hdispose.trans ?_, othersKept_trans hmod (place_others r _), (place_late r _).trans hlate,
      passesKept_trans hpasses (by constructor <;> simp)⟩
    unfold place
    split
    · exact .refl _
    · split
      · rfl
      · exact .refl _
  · exact ⟨hdispose, hmod, hlate, hpasses⟩

theorem settleWindow_settled {r i : Nat} {w : Window} {s : State} (hb : s.book.rides.find r = some (s.rideBook r)) :
    Settled r i w s (settleWindow r i w s) := by
  obtain ⟨honly, hothers, hlate, hpasses⟩ := placeDisposed_keeps r i w s
  have hj := judged_judgeSlots r (placeDisposed r i w s)
  rw [settleWindow_eq]
  exact {
    found := judgeSlots_level (placeDisposed_found i w hb)
    others := othersKept_trans hothers (judgeSlots_levels r _).others
    late := (judgeSlots_late r _).trans hlate
    passes := hj.passes.trans hpasses.passes
    retired := hj.retired.trans hpasses.retired
    accounts := hj.accounts.trans hpasses.accounts
    activeCount := hj.activeCount.trans hpasses.activeCount
    time := hj.time.trans honly.time
    units := hj.units.trans honly.units
    ests := hj.ests.trans honly.ests
    poller := hj.poller.trans honly.poller
    port := portKept_trans (portKept_of_eq honly.port) hj.port }

theorem settledBook_resolved (s : State) (r i : Nat) (w : Window) :
    (s.settledBook r i w).windows.map (·.resolved) = ((s.rideBook r).windows.map (·.resolved)).set i true := by
  unfold State.settledBook
  split
  · rw [place_resolved]
    exact modify_settle_resolved _ _
  · exact modify_settle_resolved _ _

theorem settledBook_f (s : State) (r i : Nat) (w : Window) :
    (s.settledBook r i w).f = (s.rideBook r).f + s.leftOver w := by
  unfold State.settledBook
  split
  · rw [place_f]; rfl
  · rfl

/-! ### The windows of a ride in turn (R93) -/

theorem resolveWindow_none {r i : Nat} {s : State} (h : (s.rideBook r).windows[i]? = none) :
    resolveWindow r i s = s := by
  rw [resolveWindow, h]

theorem resolveWindow_resolved {r i : Nat} {s : State} {w : Window} (h : (s.rideBook r).windows[i]? = some w)
    (hres : w.resolved = true) : resolveWindow r i s = s := by
  simp only [resolveWindow, h, hres, if_true]

theorem resolveWindow_open {r i : Nat} {s : State} {w : Window} (h : (s.rideBook r).windows[i]? = some w)
    (hres : w.resolved = false) : resolveWindow r i s = closeCheck r (settleWindow r i w s) := by
  simp only [resolveWindow, h, hres, Bool.false_eq_true, if_false]

theorem resolveWindow_idle {r i : Nat} {s : State}
    (h : ∀ w, (s.rideBook r).windows[i]? = some w → w.resolved = true) : resolveWindow r i s = s := by
  cases hw : (s.rideBook r).windows[i]? with
  | none => exact resolveWindow_none hw
  | some w => exact resolveWindow_resolved hw (h w hw)

/-- A resolution resolves its window and no other. -/
theorem resolveWindow_flags (r i : Nat) (s : State) : ((resolveWindow r i s).rideBook r).windows.map (·.resolved) =
    ((s.rideBook r).windows.map (·.resolved)).set i true := by
  cases hw : (s.rideBook r).windows[i]? with
  | none =>
    rw [resolveWindow_none hw, set_true_self (.inl (by rw [List.getElem?_map, hw]; rfl))]
  | some w =>
    cases hres : w.resolved with
    | true =>
      rw [resolveWindow_resolved hw hres, set_true_self (.inr (by rw [List.getElem?_map, hw, ← hres]; rfl))]
    | false =>
      have hsettled := settleWindow_settled (i := i) (w := w) (find_of_window hw)
      rw [resolveWindow_open hw hres, (rideOnly_closeCheck r _).book.resolved, rideBook_of_find hsettled.found]
      exact settledBook_resolved s r i w

theorem resolveUpTo_flags (r i : Nat) (s : State) : ((resolveUpTo r i s).rideBook r).windows.map (·.resolved) =
    (List.range (i + 1)).foldl (fun fs j => fs.set j true) ((s.rideBook r).windows.map (·.resolved)) := by
  unfold resolveUpTo
  generalize List.range (i + 1) = js
  induction js generalizing s with
  | nil => rfl
  | cons j js ih => rw [List.foldl_cons, ih, resolveWindow_flags, List.foldl_cons]

theorem resolveUpTo_resolved (r i : Nat) (s : State) {j : Nat} {x : Window} (hj : j ≤ i)
    (hx : ((resolveUpTo r i s).rideBook r).windows[j]? = some x) : x.resolved = true := by
  have hflag : (((resolveUpTo r i s).rideBook r).windows.map (·.resolved))[j]? = some x.resolved := by
    rw [List.getElem?_map, hx, Option.map_some]
  rw [resolveUpTo_flags] at hflag
  exact foldl_set_true _ _ (.inl (List.mem_range.mpr (Nat.lt_succ_of_le hj))) hflag

theorem foldl_resolve_idle {r : Nat} {js : List Nat} {s : State}
    (h : ∀ j ∈ js, ∀ w, (s.rideBook r).windows[j]? = some w → w.resolved = true) :
    js.foldl (fun s j => resolveWindow r j s) s = s := by
  induction js with
  | nil => rfl
  | cons j js ih =>
    rw [List.foldl_cons, resolveWindow_idle (h j List.mem_cons_self)]
    exact ih fun k hk => h k (List.mem_cons_of_mem j hk)

theorem resolveUpTo_idle {r i : Nat} {s : State}
    (h : ∀ j x, j ≤ i → (s.rideBook r).windows[j]? = some x → x.resolved = true) : resolveUpTo r i s = s :=
  foldl_resolve_idle fun j hj x hx => h j x (Nat.le_of_lt_succ (List.mem_range.mp hj)) hx

/-- Where the lower windows are resolved, window `i` alone is. -/
theorem resolveUpTo_last {r i : Nat} {s : State}
    (h : ∀ j x, j < i → (s.rideBook r).windows[j]? = some x → x.resolved = true) :
    resolveUpTo r i s = resolveWindow r i s := by
  rw [resolveUpTo, List.range_succ, List.foldl_append,
    foldl_resolve_idle fun j hj x hx => h j x (List.mem_range.mp hj) hx]
  rfl

/-! ### The close check after a resolution (R26, R94) -/

theorem mark_of_resolved {m : Nat} {w : Window} (h : w.resolved = true) : w.mark m = w := by
  simp [Window.mark, h]

/-- Nothing is marked where every window is resolved. -/
theorem marked_resolved_self {since : Option Nat} {b : RideBook} (h : ∀ w ∈ b.windows, w.resolved = true) :
    b.marked since = b := by
  cases since with
  | none => rfl
  | some c =>
    have hmap : b.windows.map (Window.mark (c / 60)) = b.windows := by
      refine (List.map_congr_left fun w hw => mark_of_resolved (h w hw)).trans (List.map_id' _)
    rw [RideBook.marked, hmap]

theorem bookHears_closed (r : Nat) (since : Option Nat) (s : State) :
    bookHears r .closed since s = judgeSlots r (markWindows r since s) := rfl

theorem meetsGraceEnd_resolved {rep : StateReport} {s : State}
    (h : ∀ w ∈ (s.rideBook rep.ride).windows, w.resolved = true) : s.meetsGraceEnd rep = false := by
  rw [Bool.eq_false_iff]
  intro hm
  obtain ⟨-, c, -, -, w, hw, hres, -⟩ := (meetsGraceEnd_iff s rep).mp hm
  rw [h w hw] at hres
  cases hres

/-- A ride that closes with all its windows resolved has SLOTS judged, and its book stands else. -/
theorem changeState_closed_found {r : Nat} {s : State} {u : RideUnit} {b : RideBook} (hu : s.units.find r = some u)
    (hb : s.book.rides.find r = some b) (hlate : s.book.late = []) (hres : ∀ w ∈ b.windows, w.resolved = true) :
    (changeState r .closed s).book.rides.find r =
      some { b with slotsLevel := (changeState r .closed s).slotsHold r } := by
  obtain ⟨y, hybook, hytime, hyunits, hbook⟩ := changeState_book .closed hu
  have hyride : y.rideBook r = b := by rw [rideBook_congr (congrArg (·.rides) hybook), rideBook_of_find hb]
  have hmeets : y.meetsGraceEnd (stateReport r u .closed s) = false :=
    meetsGraceEnd_resolved fun w hw => hres w (by rw [← hyride]; exact hw)
  have hylate : y.book.late = [] := by rw [hybook, hlate]
  have hears : (changeState r .closed s).book = (judgeSlots r (markWindows r s.clockNow y)).book := by
    rw [hbook, reportToBook_atOnce _ y hmeets, takeLate_none _ y hylate]
    rfl
  have hmarked : (markWindows r s.clockNow y).book.rides.find r = some b := by
    have hyfind : y.book.rides.find r = some b := by rw [hybook, hb]
    have hself := marked_resolved_self (since := s.clockNow) hres
    unfold markWindows
    cases hc : s.clockNow with
    | none => exact hyfind
    | some c =>
      rw [hc] at hself
      simp only [State.modBook_book, Table.find_update, if_true, hyfind, Option.map_some]
      exact congrArg some hself
  have hslots : (judgeSlots r (markWindows r s.clockNow y)).slotsHold r = (changeState r .closed s).slotsHold r := by
    have hride := rideBook_congr (congrArg (·.rides) hears) r
    refine slotsHold_congr (by rw [hride]) (by rw [hride]) ?_ ?_
    · simp [hyunits]
    · simp [hytime]
  rw [hears, judgeSlots_level hmarked, hslots]

theorem closeCheck_found {r : Nat} {s : State} {b : RideBook} (hb : s.book.rides.find r = some b)
    (hlate : s.book.late = []) (hslots : b.slotsLevel = s.slotsHold r) :
    (closeCheck r s).book.rides.find r = some { b with slotsLevel := (closeCheck r s).slotsHold r } := by
  unfold closeCheck
  split
  next hholds =>
    cases hu : s.units.find r with
    | none => simp [State.closeHolds, hu] at hholds
    | some u =>
      refine changeState_closed_found hu hb hlate fun w hw => ?_
      have hall : s.allResolved r = true := by
        simp only [State.closeHolds, hu] at hholds
        split at hholds
        · simp only [Bool.and_eq_true] at hholds
          exact hholds.2
        · cases hholds
      rw [State.allResolved, rideBook_of_find hb] at hall
      exact List.all_eq_true.mp hall w hw
  next => rw [← hslots, hb]

/-! ### A grace end (R93, R95, R132) -/

theorem graceEnd_eq (i r : Nat) (s : State) : graceEnd i r s = judgeBook (judgeFlex r (resolveUpTo r i s)) := rfl

theorem graceEnd_judged (i r : Nat) (s : State) : Judged (resolveUpTo r i s) (graceEnd i r s) :=
  (judged_judgeFlex r _).trans (judged_judgeBook _)

theorem graceEnd_levels (i r : Nat) (s : State) : LevelsOnly r (resolveUpTo r i s) (graceEnd i r s) :=
  (judgeFlex_levels r _).trans (judgeBook_levels r _)

theorem judgeBook_rides (s : State) : (judgeBook s).book.rides = s.book.rides := by simp

theorem graceEnd_found {i r : Nat} {s : State} {b : RideBook} (hb : (resolveUpTo r i s).book.rides.find r = some b) :
    (graceEnd i r s).book.rides.find r = some { b with flexLevel := decide (0 < b.u) } := by
  rw [graceEnd_eq, judgeBook_rides, judgeFlex_level hb]

theorem holds_eq (b : Book) : b.holds = decide (44237 ≤ b.activeCount ∨ 22119 ≤ b.accounts.length) := by
  rw [Bool.decide_or]
  rfl

/-- Once BOOK is judged, its level is its condition. -/
theorem judgeBook_bookLevel (s : State) : (judgeBook s).book.bookLevel =
    decide (44237 ≤ (judgeBook s).book.activeCount ∨ 22119 ≤ (judgeBook s).book.accounts.length) := by
  have hj := judged_judgeBook s
  rw [judgeBook_level, holds_eq, hj.activeCount, hj.accounts]

/-- A resolution that finds its ride's lower windows resolved, up to the levels judged after it. -/
structure Resolved (r i : Nat) (w : Window) (s t : State) : Prop where
  book : t.rideBook r = { s.settledBook r i w with
    flexLevel := decide (0 < (s.settledBook r i w).u), slotsLevel := t.slotsHold r }
  others : OthersKept r s.book.rides t.book.rides
  passes : t.book.passes = (disposePasses r w s).book.passes
  retired : t.book.retired = (disposePasses r w s).book.retired
  accounts : t.book.accounts = (disposePasses r w s).book.accounts
  activeCount : t.book.activeCount = (disposePasses r w s).book.activeCount
  serial : t.book.serial = s.book.serial
  units : t.units = (closeCheck r (settleWindow r i w s)).units
  otherUnits : OthersKept r s.units t.units
  otherEsts : OthersKept r s.ests t.ests
  time : t.time = s.time
  poller : t.poller = s.poller
  port : PortKept s t

theorem graceEnd_resolved {r i : Nat} {w : Window} {s : State} (hlate : s.book.late = [])
    (hw : (s.rideBook r).windows[i]? = some w) (hres : w.resolved = false)
    (hlow : ∀ j x, j < i → (s.rideBook r).windows[j]? = some x → x.resolved = true) :
    Resolved r i w s (graceEnd i r s) := by
  have hsettled := settleWindow_settled (i := i) (w := w) (find_of_window hw)
  have hone : resolveUpTo r i s = closeCheck r (settleWindow r i w s) :=
    (resolveUpTo_last hlow).trans (resolveWindow_open hw hres)
  have hclosed := closeCheck_found hsettled.found (hsettled.late.trans hlate) rfl
  have hfound := graceEnd_found ((congrArg (·.book.rides.find r) hone).trans hclosed)
  have hjudged := graceEnd_judged i r s
  have hlevels := graceEnd_levels i r s
  have hride := rideOnly_closeCheck r (settleWindow r i w s)
  rw [hone] at hjudged hlevels
  have hslots : (graceEnd i r s).slotsHold r = (closeCheck r (settleWindow r i w s)).slotsHold r :=
    hlevels.slotsHold hjudged.units hjudged.time
  exact {
    book := by rw [rideBook_of_find hfound, hslots]
    others := othersKept_trans (othersKept_trans hsettled.others hride.book.others) hlevels.others
    passes := (hjudged.passes.trans hride.book.passes.passes).trans hsettled.passes
    retired := (hjudged.retired.trans hride.book.passes.retired).trans hsettled.retired
    accounts := (hjudged.accounts.trans hride.book.passes.accounts).trans hsettled.accounts
    activeCount := (hjudged.activeCount.trans hride.book.passes.activeCount).trans hsettled.activeCount
    serial := by simp [graceEnd_eq]
    units := hjudged.units
    otherUnits := by
      rw [hjudged.units]
      exact othersKept_trans (othersKept_of_eq r hsettled.units) hride.units
    otherEsts := by
      rw [hjudged.ests]
      exact othersKept_trans (othersKept_of_eq r hsettled.ests) hride.ests
    time := (hjudged.time.trans hride.time).trans hsettled.time
    poller := (hjudged.poller.trans hride.poller).trans hsettled.poller
    port := portKept_trans (portKept_trans hsettled.port hride.port) hjudged.port }

/-- The settled book, as the obligation writes it. -/
theorem settledBook_eq {s : State} {r i : Nat} {w : Window} {u : RideUnit} {b : RideBook}
    (hu : s.units.find r = some u) (hb : (s.rideBook r).settled i (s.leftOver w) = b) :
    s.settledBook r i w =
      if w.interrupted = true ∧ w.passes ≠ [] ∧ u.state = .opened ∧ 0 < b.u then b.place s.minute else b := by
  rw [State.settledBook, hu, hb, Option.map_some]
  exact if_congr (by rw [Option.some.injEq]) rfl rfl

/-- Whether a ride's windows are all resolved is settled before placement. -/
theorem allResolved_settled {s y : State} {r i : Nat} {w : Window} (h : Settled r i w s y) :
    y.allResolved r = true ↔ ∀ x ∈ ((s.rideBook r).settled i (s.leftOver w)).windows, x.resolved = true := by
  have hflags : (y.rideBook r).windows.map (·.resolved) =
      ((s.rideBook r).settled i (s.leftOver w)).windows.map (·.resolved) := by
    rw [rideBook_of_find h.found]
    exact (settledBook_resolved s r i w).trans (modify_settle_resolved _ _).symm
  have hall : ∀ ws : List Window, (∀ x ∈ ws, x.resolved = true) ↔ ∀ f ∈ ws.map (·.resolved), f = true := fun ws => by
    simp
  rw [State.allResolved, List.all_eq_true, hall, hflags, hall]

/-- Settles O25: windows are resolved in index order, each by the disposal of its passes, placement and the close check;
the levels are judged at the end of the event. -/
theorem windowResolves : Obligations.WindowResolves := by
  intro d r i s t hevents ht
  have htake : t = graceEnd i r s := ht.trans (take_windows_single hevents r s)
  subst htake
  refine ⟨fun j x hj hx => ?_, fun hdone => ?_, fun u e w b n hu he hlate hw hres hlow hheld hn hb => ?_⟩
  · rw [(graceEnd_levels i r s).windows] at hx
    exact resolveUpTo_resolved r i s hj hx
  · have hidle : resolveUpTo r i s = s := resolveUpTo_idle hdone
    have hlevels := graceEnd_levels i r s
    have hjudged := graceEnd_judged i r s
    rw [hidle] at hlevels hjudged
    exact ⟨hlevels.windows, hlevels.f, hlevels.u, hjudged.passes, hjudged.retired, hjudged.accounts, hjudged.units,
      hjudged.ests⟩
  · have hr := graceEnd_resolved hlate hw hres hlow
    have hsettled := settleWindow_settled (i := i) (w := w) (find_of_window hw)
    have hleft : s.leftOver w = n := hn.symm
    have hbook : (s.rideBook r).settled i (s.leftOver w) = b := by rw [hleft, hb]; rfl
    have hfinal := settledBook_eq hu hbook
    refine ⟨by rw [hr.book, hfinal], by rw [hr.book, hfinal], ?f, by rw [hr.book], by rw [hr.book], ?passes,
      fun hint => ?interrupted, fun hint => ?kept, judgeBook_bookLevel _, ?unit, hr.serial, hr.others,
      hr.otherUnits, hr.otherEsts, hr.time, hr.poller, hr.port⟩
    case f =>
      rw [hr.book]
      exact (settledBook_f s r i w).trans (congrArg (·.f) hbook)
    case passes =>
      intro p x hx
      rw [hr.passes, disposePasses_find, hx]
      rfl
    case interrupted =>
      obtain ⟨-, -, -, hretired, haccounts, hactive⟩ := foldl_convert_keeps r w.passes s
      rw [hr.retired, hr.accounts, hr.activeCount, disposePasses_interrupted s hint]
      exact ⟨hretired, haccounts, hactive⟩
    case kept =>
      obtain ⟨hretired, hactive⟩ := foldl_retire_counts .expired w.passes hheld
      rw [hr.retired, hr.accounts, hr.activeCount, disposePasses_kept s hint]
      refine ⟨hretired, hactive, fun p hp x a hx ha => ?_⟩
      obtain ⟨-, -, -, hgone⟩ := foldl_retire_account .expired w.passes ha
      exact hgone p hp x hx rfl
    case unit =>
      have hclose := closeCheck_units (r := r) (s := settleWindow r i w s) (by rw [hsettled.units, hu])
        (by rw [hsettled.ests, he])
      have hclock : (settleWindow r i w s).clockNow = s.clockNow := by
        rw [State.clockNow, State.clockNow, hsettled.time]
      rw [hr.units, hclose, hclock]
      refine congrArg some (if_congr ?_ rfl rfl)
      rw [allResolved_settled hsettled, hbook]

end Sys2Proof.Machine
end

section
/-! The admission of guests: O29. -/

namespace Sys2Proof.Machine

open Sys2Proof.Safety

/-! ### What a resolution leaves of windows and passes -/

/-- The times of a window that no request changes. -/
def Window.bounds (w : Window) : Nat × Nat := (w.startMin, w.endMin)

/-- What a pass is for. -/
def Pass.place (p : Pass) : Nat × Nat := (p.ride, p.window)

theorem settledBook_bounds (s : State) (r i : Nat) (w : Window) :
    (s.settledBook r i w).windows.map Window.bounds = (s.rideBook r).windows.map Window.bounds := by
  have hsettle : ((s.rideBook r).settled i (s.leftOver w)).windows.map Window.bounds =
      (s.rideBook r).windows.map Window.bounds := by
    refine List.ext_getElem? fun j => ?_
    rw [List.getElem?_map, List.getElem?_map]
    simp only [RideBook.settled, RideBook.withFlex, List.getElem?_modify]
    cases (s.rideBook r).windows[j]? with
    | none => rfl
    | some x => by_cases hij : i = j <;> simp [hij, Window.settle, Window.bounds]
  unfold State.settledBook
  split
  · rw [map_eq_of_frame (place_frame _ _) Window.bounds fun _ => rfl, hsettle]
  · exact hsettle

/-- `t` is `s` with windows of ride `r` resolved, as far as requests about passes read it. -/
structure Resolving (r : Nat) (s t : State) : Prop where
  bounds : (t.rideBook r).windows.map Window.bounds = (s.rideBook r).windows.map Window.bounds
  place : ∀ n, (t.book.passes.find n).map Pass.place = (s.book.passes.find n).map Pass.place
  time : t.time = s.time
  port : PortKept s t

theorem Resolving.refl (r : Nat) (s : State) : Resolving r s s := ⟨rfl, fun _ => rfl, rfl, portKept_of_eq rfl⟩

theorem Resolving.trans {r : Nat} {s t u : State} (h : Resolving r s t) (g : Resolving r t u) : Resolving r s u :=
  ⟨g.bounds.trans h.bounds, fun n => (g.place n).trans (h.place n), g.time.trans h.time, portKept_trans h.port g.port⟩

theorem resolving_resolveWindow (r i : Nat) (s : State) : Resolving r s (resolveWindow r i s) := by
  cases hw : (s.rideBook r).windows[i]? with
  | none => rw [resolveWindow_none hw]; exact .refl r s
  | some w =>
    cases hres : w.resolved with
    | true => rw [resolveWindow_resolved hw hres]; exact .refl r s
    | false =>
      have hsettled := settleWindow_settled (i := i) (w := w) (find_of_window hw)
      have hclose := rideOnly_closeCheck r (settleWindow r i w s)
      rw [resolveWindow_open hw hres]
      refine ⟨?_, fun n => ?_, hclose.time.trans hsettled.time, portKept_trans hsettled.port hclose.port⟩
      · rw [map_eq_of_frame hclose.book.frame Window.bounds fun _ => rfl, rideBook_of_find hsettled.found]
        exact settledBook_bounds s r i w
      · rw [hclose.book.passes.passes, hsettled.passes, disposePasses_find, Option.map_map]
        refine congrArg (Option.map · _) (funext fun p => ?_)
        dsimp only [Function.comp_apply]
        split
        · split <;> rfl
        · rfl

theorem resolving_resolveUpTo (r i : Nat) (s : State) : Resolving r s (resolveUpTo r i s) := by
  unfold resolveUpTo
  generalize List.range (i + 1) = js
  induction js generalizing s with
  | nil => exact .refl r s
  | cons j js ih => exact (resolving_resolveWindow r j s).trans (ih _)

theorem Resolving.pass {r n : Nat} {s t : State} {p q : Pass} (h : Resolving r s t) (hp : s.book.passes.find n = some p)
    (hq : t.book.passes.find n = some q) : q.ride = p.ride ∧ q.window = p.window := by
  have hplace := h.place n
  rw [hp, hq] at hplace
  exact Prod.mk.inj (Option.some.inj hplace)

theorem Resolving.window {r i : Nat} {s t : State} {w : Window} (h : Resolving r s t)
    (hw : (s.rideBook r).windows[i]? = some w) :
    ∃ x, (t.rideBook r).windows[i]? = some x ∧ x.startMin = w.startMin ∧ x.endMin = w.endMin := by
  have hbounds := congrArg (·[i]?) h.bounds
  simp only [List.getElem?_map, hw, Option.map_some] at hbounds
  obtain ⟨x, hx, heq⟩ := Option.map_eq_some_iff.mp hbounds
  exact ⟨x, hx, Prod.mk.inj heq⟩

/-! ### The checks of REDEEM (R110, R121 to R123) -/

theorem dayPassed_iff (s : State) (x : Nat) : s.dayPassed x = true ↔
    x < s.minute ∨ (s.time.closePassed = true ∧ ∃ plan, s.time.plan = some plan ∧ s.minute < plan.closeMin) := by
  unfold State.dayPassed
  cases s.time.plan <;> simp

theorem dayPassed_congr {s t : State} (h : t.time = s.time) (x : Nat) : t.dayPassed x = s.dayPassed x := by
  rw [State.dayPassed, State.dayPassed, State.minute, State.minute, h]

theorem rideStateOf_eq {s : State} {r : Nat} {u : RideUnit} (hu : s.units.find r = some u) :
    s.rideStateOf r = u.state := by
  rw [State.rideStateOf, hu]

theorem redeemCheck_time {s : State} {p : Pass} {c : Code} (h : s.timeRefusal p = some c) :
    s.redeemCheck p = some (c, none) := by
  rw [State.redeemCheck, h]

theorem redeemCheck_state {s : State} {p : Pass} {u : RideUnit} (h : s.timeRefusal p = none)
    (hu : s.units.find p.ride = some u) :
    s.redeemCheck p = (redeemRefusal u.state).map fun c => (c, some u.state) := by
  rw [State.redeemCheck, h, rideStateOf_eq hu]

theorem timeRefusal_issued {s : State} {p : Pass} {w : Window} (hst : p.state = .issued) (hw : s.windowOf p = some w) :
    s.timeRefusal p = if s.minute + s.time.params.gEarly < w.startMin then some .tooEarly else none := by
  simp only [State.timeRefusal, hst, hw]

theorem timeRefusal_flex {s : State} {p : Pass} {plan : Plan} (hst : p.state = .flex)
    (hplan : s.time.plan = some plan) :
    s.timeRefusal p = if s.dayPassed (plan.closeMin + s.time.params.gLate) then some .tooLate else none := by
  simp only [State.timeRefusal, hst, hplan]

theorem timeRefusal_expired {s : State} {p : Pass} (hst : p.state = .expired) : s.timeRefusal p = some .tooLate := by
  simp only [State.timeRefusal, hst, retiredRefusal]

/-- The check of a FLEX pass reads the clock and the ride's state only. -/
theorem redeemCheck_congr {s t : State} {p : Pass} (hst : p.state = .flex) (ht : t.time = s.time)
    (hu : t.units = s.units) : t.redeemCheck p = s.redeemCheck p := by
  have htime : t.timeRefusal p = s.timeRefusal p := by
    simp only [State.timeRefusal, hst, ht, dayPassed_congr ht]
  rw [State.redeemCheck, State.redeemCheck, htime, State.rideStateOf, State.rideStateOf, hu]

theorem timeRefusal_table {s : State} {p : Pass} {w : Window} {plan : Plan} (hw : s.windowOf p = some w) (hplan : s.time.plan = some plan)
    (hst : p.state = .issued ∨ p.state = .flex) :
    (p.state = .issued ∧ s.minute + s.time.params.gEarly < w.startMin → s.timeRefusal p = some .tooEarly) ∧
    (p.state = .flex ∧ s.dayPassed (plan.closeMin + s.time.params.gLate) = true → s.timeRefusal p = some .tooLate) ∧
    (¬(p.state = .issued ∧ s.minute + s.time.params.gEarly < w.startMin) →
      ¬(p.state = .flex ∧ s.dayPassed (plan.closeMin + s.time.params.gLate) = true) → s.timeRefusal p = none) := by
  rcases hst with hst | hst
  · rw [timeRefusal_issued hst hw]
    exact ⟨fun h => if_pos h.2, fun h => (nomatch hst.symm.trans h.1), fun h _ => if_neg fun hlt => h ⟨hst, hlt⟩⟩
  · rw [timeRefusal_flex hst hplan]
    exact ⟨fun h => (nomatch hst.symm.trans h.1), fun h => if_pos h.2, fun _ h => if_neg fun hp => h ⟨hst, hp⟩⟩

/-! ### The admission in the book (R124) -/

/-- A pass once `a` guests have been admitted on it at minute `m`. -/
def Pass.admitted (m a : Nat) (p : Pass) : Pass :=
  { p with remaining := p.remaining - a, firstUse := some (p.firstUse.getD m) }

/-- The book of a ride once `a` guests with FLEX passes have been admitted. -/
def RideBook.admitFlex (a : Nat) (b : RideBook) : RideBook := { b with f := b.f - a, u := min b.u (b.f - a) }

/-- The book of a ride once pass `n` is off the list of window `i`. -/
def RideBook.offWindow (i n : Nat) (b : RideBook) : RideBook :=
  { b with windows := b.windows.modify i fun w => { w with passes := w.passes.filter (· ≠ n) } }

/-- The state with the guests counted in the pass and in the ride's book, the pass not yet retired. -/
def State.admitCounted (s : State) (n a : Nat) (p : Pass) : State :=
  if p.state = .flex then (s.modPass n (Pass.admitted s.minute a)).modBook p.ride (RideBook.admitFlex a)
  else s.modPass n (Pass.admitted s.minute a)

/-- The same, with the pass off its window's list, where it is ISSUED. -/
def State.admitListed (s : State) (n a : Nat) (p : Pass) : State :=
  if p.state = .issued then (s.admitCounted n a p).modBook p.ride (RideBook.offWindow p.window n)
  else s.admitCounted n a p

theorem admitGuests_eq (n a : Nat) (p : Pass) (s : State) : admitGuests n a p s =
    if p.remaining - a = 0 then retirePass n .redeemed (s.admitListed n a p) else s.admitCounted n a p := by
  rfl

/-- What the admission of `a` guests on pass `n` leaves. -/
structure Admitted (n a : Nat) (p : Pass) (s t : State) : Prop where
  pass : t.book.passes.find n = some (if p.remaining = a then (p.admitted s.minute a).retired .redeemed s.minute
    else p.admitted s.minute a)
  others : OthersKept n s.book.passes t.book.passes
  retired : t.book.retired = if p.remaining = a then s.book.retired ++ [n] else s.book.retired
  activeCount : t.book.activeCount = if p.remaining = a then s.book.activeCount - 1 else s.book.activeCount
  serial : t.book.serial = s.book.serial
  account : ∀ x, s.book.accounts.find p.account = some x → t.book.accounts.find p.account =
    some (if p.remaining = a then { x with active := x.active.filter (· ≠ n) } else x)
  accounts : OthersKept p.account s.book.accounts t.book.accounts
  flex : p.state = .flex → t.rideBook p.ride = (s.rideBook p.ride).admitFlex a
  issued : p.state = .issued → t.rideBook p.ride =
    if p.remaining = a then (s.rideBook p.ride).offWindow p.window n else s.rideBook p.ride
  rides : OthersKept p.ride s.book.rides t.book.rides
  bookOnly : BookOnly s t

theorem admitFlex_empty (a : Nat) : RideBook.admitFlex a {} = {} := by simp [RideBook.admitFlex]

theorem offWindow_empty (i n : Nat) : RideBook.offWindow i n {} = {} := by simp [RideBook.offWindow]

/-- The guests are counted in the pass, and nothing but the ride's book is written else. -/
structure GuestsCounted (n a : Nat) (p : Pass) (s x : State) : Prop where
  passes : x.book.passes = s.book.passes.update n (Pass.admitted s.minute a)
  retired : x.book.retired = s.book.retired
  serial : x.book.serial = s.book.serial
  accounts : x.book.accounts = s.book.accounts
  activeCount : x.book.activeCount = s.book.activeCount
  rides : OthersKept p.ride s.book.rides x.book.rides
  bookOnly : BookOnly s x

theorem admitCounted_counted (n a : Nat) (p : Pass) (s : State) : GuestsCounted n a p s (s.admitCounted n a p) := by
  unfold State.admitCounted
  split
  · exact ⟨rfl, rfl, rfl, rfl, rfl, modBook_others p.ride _ (s.modPass n (Pass.admitted s.minute a)), rfl⟩
  · exact ⟨rfl, rfl, rfl, rfl, rfl, othersKept_refl _ _, rfl⟩

theorem admitListed_counted (n a : Nat) (p : Pass) (s : State) : GuestsCounted n a p s (s.admitListed n a p) := by
  have h := admitCounted_counted n a p s
  unfold State.admitListed
  split
  · exact ⟨h.passes, h.retired, h.serial, h.accounts, h.activeCount,
      othersKept_trans h.rides (modBook_others p.ride _ _), h.bookOnly.trans rfl⟩
  · exact h

theorem admitCounted_flex {n a : Nat} {p : Pass} (s : State) (hst : p.state = .flex) :
    (s.admitCounted n a p).rideBook p.ride = (s.rideBook p.ride).admitFlex a := by
  rw [State.admitCounted, if_pos hst]
  exact modBook_rideBook_of_empty _ _ (admitFlex_empty a)

theorem admitCounted_issued {n a : Nat} {p : Pass} (s : State) (hst : p.state = .issued) :
    (s.admitCounted n a p).rideBook p.ride = s.rideBook p.ride := by
  rw [State.admitCounted, if_neg (by rw [hst]; nofun)]
  rfl

theorem admitListed_flex {n a : Nat} {p : Pass} (s : State) (hst : p.state = .flex) :
    (s.admitListed n a p).rideBook p.ride = (s.rideBook p.ride).admitFlex a := by
  rw [State.admitListed, if_neg (by rw [hst]; nofun), admitCounted_flex s hst]

theorem admitListed_issued {n a : Nat} {p : Pass} (s : State) (hst : p.state = .issued) :
    (s.admitListed n a p).rideBook p.ride = (s.rideBook p.ride).offWindow p.window n := by
  rw [State.admitListed, if_pos hst, modBook_rideBook_of_empty _ _ (offWindow_empty _ _), admitCounted_issued s hst]

theorem GuestsCounted.find {n a : Nat} {p : Pass} {s x : State} (h : GuestsCounted n a p s x)
    (hp : s.book.passes.find n = some p) : x.book.passes.find n = some (p.admitted s.minute a) := by
  simp [h.passes, hp]

theorem GuestsCounted.others {n a : Nat} {p : Pass} {s x : State} (h : GuestsCounted n a p s x) :
    OthersKept n s.book.passes x.book.passes := fun j hj => by simp [h.passes, Ne.symm hj]

theorem admitGuests_admitted {n a : Nat} {p : Pass} {s : State} (hp : s.book.passes.find n = some p)
    (ha : a ≤ p.remaining) : Admitted n a p s (admitGuests n a p s) := by
  rw [admitGuests_eq]
  by_cases hall : p.remaining = a
  · have hcount := admitListed_counted n a p s
    have hfind := hcount.find hp
    rw [if_pos (by omega), retirePass_some .redeemed hfind]
    have hminute : (s.admitListed n a p).minute = s.minute := hcount.bookOnly.minute
    refine ⟨?_, fun j hj => ?_, ?_, ?_, hcount.serial, fun x hx => ?_, fun j hj => ?_, fun hst => ?_, fun hst => ?_,
      hcount.rides, hcount.bookOnly.trans rfl⟩
    · rw [if_pos hall, Table.find_update, if_pos rfl, hfind, hminute]
      rfl
    · rw [Table.find_update, if_neg (Ne.symm hj)]
      exact hcount.others j hj
    · rw [if_pos hall, ← hcount.retired]
    · rw [if_pos hall, ← hcount.activeCount]
    · have haccount : (p.admitted s.minute a).account = p.account := rfl
      dsimp only
      rw [if_pos hall, Table.find_update, if_pos haccount, hcount.accounts, hx]
      rfl
    · have haccount : (p.admitted s.minute a).account ≠ j := Ne.symm hj
      dsimp only
      rw [Table.find_update, if_neg haccount, hcount.accounts]
    · exact admitListed_flex s hst
    · rw [if_pos hall]
      exact admitListed_issued s hst
  · have hcount := admitCounted_counted n a p s
    rw [if_neg (by omega)]
    refine ⟨?_, hcount.others, ?_, ?_, hcount.serial, fun x hx => ?_, ?_, fun hst => admitCounted_flex s hst,
      fun hst => ?_, hcount.rides, hcount.bookOnly⟩
    · rw [if_neg hall, hcount.find hp]
    · rw [if_neg hall, hcount.retired]
    · rw [if_neg hall, hcount.activeCount]
    · rw [if_neg hall, hcount.accounts, hx]
    · exact othersKept_of_eq _ hcount.accounts
    · rw [if_neg hall, admitCounted_issued s hst]

/-! ### The request (R120 to R125) -/

theorem passMalformed_false {n : Nat} (h1 : 1 ≤ n) (h2 : n ≤ 16777215) : passMalformed n = false := by
  have hzero : decide (n = 0) = false := decide_eq_false (by omega)
  have hmax : decide (Config.passMax < n) = false := decide_eq_false (Nat.not_lt.mpr h2)
  rw [passMalformed, hzero, hmax]
  rfl

theorem judgeRequest_judged (r : Nat) (s : State) : Judged s (judgeRequest r s) :=
  (judged_judgeFlex r s).trans (judged_judgeBook _)

theorem judgeRequest_levels (r : Nat) (s : State) : LevelsOnly r s (judgeRequest r s) :=
  (judgeFlex_levels r s).trans (judgeBook_levels r _)

section

variable {s s1 : State} {n k : Nat} {found p : Pass}

theorem serveRedeem_checked (hd : s.time.day = .day) (h1 : 1 ≤ n) (h2 : n ≤ 16777215) (hk : 1 ≤ k ∧ k ≤ 8)
    (hfound : s.book.passes.find n = some found) (hactive : retiredRefusal found.state = none)
    (hearly : earlyResolution found s = s1) (hp : s1.book.passes.find n = some p) :
    (∀ c st, s1.redeemCheck p = some (c, st) →
      serveRedeem n k s = (judgeRequest p.ride s1, .redeem c n (redeemView n 0 found st s1))) ∧
    (s1.redeemCheck p = none → serveRedeem n k s = (judgeRequest p.ride (admitGuests n (min k p.remaining) p s1),
      .redeem (if p.remaining < k then .clamped else .done) n
        (redeemView n (min k p.remaining) found none (admitGuests n (min k p.remaining) p s1)))) := by
  have hformed : ¬(passMalformed n = true ∨ k = 0 ∨ 8 < k) := by
    rw [passMalformed_false h1 h2]
    simp
    omega
  refine ⟨fun c st hc => ?_, fun hc => ?_⟩ <;>
    simp only [serveRedeem, (dayRefusal_none_iff _).mpr hd, if_neg hformed, hfound, hactive, hearly, hp, hc]

end

theorem exec_redeem (tag n k : Nat) (s : State) :
    exec (.redeem tag n k) s = .next (portStep tag (.redeem n k) s) := rfl

theorem earlyResolution_none {p : Pass} {s : State} (h : p.state = .flex ∨
    (p.state = .issued ∧ ∃ w, s.windowOf p = some w ∧ s.dayPassed w.graceEnd = false)) : earlyResolution p s = s := by
  rcases h with hst | ⟨hst, w, hw, hpassed⟩
  · rw [earlyResolution, if_neg (by rw [hst]; nofun)]
  · simp only [earlyResolution, hst, if_true, hw, hpassed, Bool.false_eq_true, if_false]

theorem earlyResolution_some {p : Pass} {s : State} {w : Window} (hst : p.state = .issued) (hw : s.windowOf p = some w)
    (hpassed : s.dayPassed w.graceEnd = true) : earlyResolution p s = resolveUpTo p.ride p.window s := by
  simp only [earlyResolution, hst, if_true, hw, hpassed]

theorem retiredRefusal_active {st : PassState} (h : st = .flex ∨ st = .issued) : retiredRefusal st = none := by
  rcases h with rfl | rfl <;> rfl

/-- The view a reply shows of a pass it finds (R125). -/
theorem redeemView_found {n : Nat} {s : State} {p : Pass} (hp : s.book.passes.find n = some p) (a : Nat) (found : Pass)
    (st : Option RideState) : redeemView n a found st s =
      { admitted := some a, ride := some p.ride, window := some p.window, state := some p.state
        remaining := some p.remaining, firstUse := p.firstUse
        startMin := (if found.state = .issued then s.windowOf found else none).map (·.startMin)
        endMin := (if found.state = .issued then s.windowOf found else none).map (·.endMin), rideState := st } := by
  simp only [redeemView, hp]

/-- An admission that is answered, in terms of the state the resolution left. -/
theorem redeem_answered {tag n k : Nat} {s s1 : State} {found p : Pass} (hoff : Offered tag (.redeem n k) s)
    (hd : s.time.day = .day) (h1 : 1 ≤ n) (h2 : n ≤ 16777215) (hk : 1 ≤ k ∧ k ≤ 8)
    (hfound : s.book.passes.find n = some found) (hactive : retiredRefusal found.state = none)
    (hearly : earlyResolution found s.popInput = s1) (hp : s1.book.passes.find n = some p)
    (hcheck : s1.redeemCheck p = none) :
    ∃ t, exec (.redeem tag n k) s = .next t ∧
      AnsweredAs (.reply tag 13 (.redeem (if p.remaining < k then .clamped else .done) n
        (redeemView n (min k p.remaining) found none (admitGuests n (min k p.remaining) p s1))))
        (judgeRequest p.ride (admitGuests n (min k p.remaining) p s1)) t := by
  have hserve := (serveRedeem_checked (s := s.popInput) hd h1 h2 hk hfound hactive hearly hp).2 hcheck
  have hwait := (moves_serveRedeem n k s.popInput).waiting_nil (popInput_waiting hoff)
  rw [hserve] at hwait
  exact exec_answeredAs (exec_redeem ..) hoff
    ((gateServe_pass tag (.redeem n k) s.popInput (.inl (day_ne_opening hd))).trans (congrArg answered hserve)) hwait

theorem redeem_refused {tag n k : Nat} {s s1 : State} {found p : Pass} {c : Code} {st : Option RideState}
    (hoff : Offered tag (.redeem n k) s) (hd : s.time.day = .day) (h1 : 1 ≤ n) (h2 : n ≤ 16777215) (hk : 1 ≤ k ∧ k ≤ 8)
    (hfound : s.book.passes.find n = some found) (hactive : retiredRefusal found.state = none)
    (hearly : earlyResolution found s.popInput = s1) (hp : s1.book.passes.find n = some p)
    (hcheck : s1.redeemCheck p = some (c, st)) :
    exec (.redeem tag n k) s = .next
      (enterReply (.reply tag 13 (.redeem c n (redeemView n 0 found st s1))) (judgeRequest p.ride s1)) := by
  have hserve := (serveRedeem_checked (s := s.popInput) hd h1 h2 hk hfound hactive hearly hp).1 c st hcheck
  exact exec_answered (exec_redeem ..) hoff
    ((gateServe_pass tag (.redeem n k) s.popInput (.inl (day_ne_opening hd))).trans (congrArg answered hserve))

/-- The pass, as the obligation writes it. -/
theorem admitted_pass_eq (p : Pass) (m a : Nat) :
    (if p.remaining = a then (p.admitted m a).retired .redeemed m else p.admitted m a) =
      { p with
        remaining := p.remaining - a, firstUse := some (p.firstUse.getD m)
        state := if p.remaining = a then .redeemed else p.state
        retiredAt := if p.remaining = a then some m else p.retiredAt } := by
  split <;> rfl

/-- Settles O29: the guests are counted in the pass, the ride's book and, with the last of them, the retirement; a pass
past its window's grace has the window resolved first. -/
theorem redeemAdmits : Obligations.RedeemAdmits := by
  refine ⟨?admits, ?early, ?table, dayPassed_iff⟩
  case admits =>
    intro tag n k s p a hoff hd h1 h2 hk1 hk8 hp hst hcheck ha
    have hnone := earlyResolution_none (s := s.popInput) hst
    have hstate : p.state = .flex ∨ p.state = .issued := hst.imp_right And.left
    obtain ⟨t, hexec, ht⟩ := redeem_answered hoff hd h1 h2 ⟨hk1, hk8⟩ hp (retiredRefusal_active hstate) hnone hp hcheck
    rw [← ha] at ht
    have hadm := admitGuests_admitted (n := n) (s := s.popInput) hp (by omega : a ≤ p.remaining)
    have hj := judgeRequest_judged p.ride (admitGuests n a p s.popInput)
    have hl := judgeRequest_levels p.ride (admitGuests n a p s.popInput)
    have hb := ht.book
    have hkept := hadm.bookOnly
    refine ⟨t, redeemView n a p none (admitGuests n a p s.popInput), hexec, ?_, ?_, ?_, ?_, ?_, fun x hx => ?_, ?_,
      fun hflex => ?_, fun hissued => ?_, ?_, ?_, ?_, ht.replied, ?_, ?_, ?_, ?_, ?_, ?_⟩
    · rw [hb, hj.passes, hadm.pass]
      exact congrArg some (admitted_pass_eq p s.minute a)
    · rw [hb, hj.passes]; exact hadm.others
    · rw [hb, hj.retired]; exact hadm.retired
    · rw [hb, hj.activeCount]; exact hadm.activeCount
    · rw [hb, hj.serial]; exact hadm.serial
    · rw [hb, hj.accounts]; exact hadm.account x hx
    · rw [hb, hj.accounts]; exact hadm.accounts
    · rw [ht.rideBook, hl.f, hl.u, hl.windows, hadm.flex hflex]
      exact ⟨rfl, rfl, rfl⟩
    · rw [ht.rideBook, hl.f, hl.u, hl.windows, hadm.issued hissued]
      split <;> exact ⟨rfl, rfl, rfl⟩
    · rw [hb]; exact othersKept_trans hadm.rides hl.others
    · rw [redeemView_found hadm.pass]
    · rw [redeemView_found hadm.pass, admitted_pass_eq]
    · exact (ht.time.trans hj.time).trans hkept.time
    · exact (ht.units.trans hj.units).trans hkept.units
    · exact (ht.ests.trans hj.ests).trans hkept.ests
    · exact (ht.poller.trans hj.poller).trans hkept.poller
    · exact (ht.boards.trans hj.boards).trans hkept.boards
    · exact portKept_trans (portKept_trans (portKept_of_eq hkept.port) hj.port) ht.port
  case early =>
    intro tag n k s e d p p1 w v hoff hd h1 h2 hk1 hk8 hp hst hw hpassed hevents he hp1 hv
    have hearly := earlyResolution_some (s := s.popInput) hst hw hpassed
    have hactive := retiredRefusal_active (.inr hst)
    have hres := resolving_resolveUpTo p.ride p.window s.popInput
    obtain ⟨s1, hs1⟩ : ∃ s1, s1 = resolveUpTo p.ride p.window s.popInput := ⟨_, rfl⟩
    rw [← hs1] at hearly hres
    have hend : e = judgeRequest p.ride s1 := by
      rw [hs1]
      exact he.trans (take_windows_single hevents p.ride s.popInput)
    have hej := judgeRequest_judged p.ride s1
    have hel := judgeRequest_levels p.ride s1
    rw [← hend] at hej hel
    rw [hej.passes] at hp1
    obtain ⟨hride, hwindow⟩ := hres.pass hp hp1
    obtain ⟨x, hx, hstart, hendMin⟩ := hres.window hw
    have hx : s1.windowOf p = some x := hx
    have hview : ∀ st, redeemView n 0 p st s1 = { v with rideState := st } := fun st => by
      rw [redeemView_found hp1, hx, hv, if_pos hst, Option.map_some, Option.map_some, hstart, hendMin, hride, hwindow]
    refine ⟨fun hexp => ?_, fun hflex c st hcheck => ?_, fun hflex hcheck a q ha hq => ?_⟩
    · have hview : redeemView n 0 p none s1 = v := by rw [hview, hv]
      rw [redeem_refused hoff hd h1 h2 ⟨hk1, hk8⟩ hp hactive hearly hp1 (redeemCheck_time (timeRefusal_expired hexp)),
        hride, ← hend, hview]
    · rw [redeemCheck_congr hflex hej.time hej.units] at hcheck
      rw [redeem_refused hoff hd h1 h2 ⟨hk1, hk8⟩ hp hactive hearly hp1 hcheck, hride, ← hend, hview]
    · rw [redeemCheck_congr hflex hej.time hej.units] at hcheck
      obtain ⟨t, hexec, ht⟩ := redeem_answered hoff hd h1 h2 ⟨hk1, hk8⟩ hp hactive hearly hp1 hcheck
      rw [← ha, hride] at ht
      have hadm := admitGuests_admitted (n := n) hp1 (by omega : a ≤ p1.remaining)
      have hj := judgeRequest_judged p.ride (admitGuests n a p1 s1)
      have hl := judgeRequest_levels p.ride (admitGuests n a p1 s1)
      have hb := ht.book
      have hkept := hadm.bookOnly
      have hminute : s1.minute = s.minute := congrArg (·.clock / 60) hres.time
      have hpass : (admitGuests n a p1 s1).book.passes.find n = some q := by
        rw [hadm.pass, admitted_pass_eq, hminute, hflex, hq]
      have hflexed := hadm.flex hflex
      have hrides := hadm.rides
      rw [hride] at hflexed hrides
      have hlisted : (admitGuests n a p1 s1).windowOf p = s1.windowOf p := by
        rw [State.windowOf, hflexed]
        rfl
      have hanswer : redeemView n a p none (admitGuests n a p1 s1) = { v with
          admitted := some a, state := some q.state, remaining := some q.remaining, firstUse := q.firstUse } := by
        have hqplace : q.ride = p1.ride ∧ q.window = p1.window := by rw [hq]; exact ⟨rfl, rfl⟩
        rw [redeemView_found hpass, hlisted, hx, hv, if_pos hst, Option.map_some, Option.map_some, hstart, hendMin,
          hqplace.1, hqplace.2, hride, hwindow]
      have hbook : (t.rideBook p.ride).f = (e.rideBook p.ride).f - a ∧
          (t.rideBook p.ride).u = min (e.rideBook p.ride).u ((e.rideBook p.ride).f - a) ∧
          (t.rideBook p.ride).windows = (e.rideBook p.ride).windows := by
        rw [ht.rideBook, hl.f, hl.u, hl.windows, hflexed, hel.f, hel.u, hel.windows]
        exact ⟨rfl, rfl, rfl⟩
      refine ⟨t, hexec, by rw [hb, hj.passes, hpass], ?_, ?_, ?_, hbook.1, hbook.2.1, hbook.2.2, ?_,
        hanswer ▸ ht.replied, ?_, ?_, ?_, ?_, ?_, ?_⟩
      · rw [hb, hj.passes, hej.passes]; exact hadm.others
      · rw [hb, hj.retired, hej.retired]; exact hadm.retired
      · rw [hb, hj.activeCount, hej.activeCount]; exact hadm.activeCount
      · rw [hb]
        refine fun r hr => ?_
        rw [hl.others r hr, hrides r hr, hel.others r hr]
      · exact ((ht.time.trans hj.time).trans hkept.time).trans hej.time.symm
      · exact ((ht.units.trans hj.units).trans hkept.units).trans hej.units.symm
      · exact ((ht.ests.trans hj.ests).trans hkept.ests).trans hej.ests.symm
      · exact ((ht.poller.trans hj.poller).trans hkept.poller).trans hej.poller.symm
      · exact ((ht.boards.trans hj.boards).trans hkept.boards).trans hej.boards.symm
      · exact portKept_trans hres.port (portKept_trans (portKept_trans (portKept_of_eq hkept.port) hj.port) ht.port)
  case table =>
    intro s p u w plan early late hu hw hplan hst hearly hlate
    obtain ⟨htooEarly, htooLate, hpasses⟩ := timeRefusal_table hw hplan hst
    refine ⟨fun h => redeemCheck_time (htooEarly (hearly.mp h)), fun h => redeemCheck_time (htooLate (hlate.mp h)),
      fun hne hnl => ?_⟩
    rw [redeemCheck_state (hpasses (hne ∘ hearly.mpr) (hnl ∘ hlate.mpr)) hu]
    cases u.state <;> simp [redeemRefusal]

end Sys2Proof.Machine
end

section
/-! The cancellation of a pass: O30. -/

namespace Sys2Proof.Machine

open Sys2Proof.Safety

/-! ### The cancellation in the book (R127, R128) -/

/-- The state with pass `n` retired as VOIDED and its ride's book written, placement not yet run. -/
def State.cancelled (s : State) (n : Nat) (p : Pass) (f : RideBook → RideBook) : State :=
  retirePass n .voided (s.modBook p.ride f)

/-- Placement runs after a cancellation that leaves the ride's book as `b`. -/
def State.runsAfter (s : State) (r : Nat) (b : RideBook) : Prop :=
  (s.units.find r).map (·.state) = some .opened ∧ 0 < b.u

/-- What the cancellation of pass `n` leaves, where `b` is the ride's book before placement. -/
structure Cancelled (n : Nat) (p : Pass) (b : RideBook) (s t : State) : Prop where
  pass : t.book.passes.find n = some (p.retired .voided s.minute)
  others : OthersKept n s.book.passes t.book.passes
  retired : t.book.retired = s.book.retired ++ [n]
  activeCount : t.book.activeCount = s.book.activeCount - 1
  serial : t.book.serial = s.book.serial
  account : ∀ a, s.book.accounts.find p.account = some a →
    t.book.accounts.find p.account = some { a with active := a.active.filter (· ≠ n) }
  accounts : OthersKept p.account s.book.accounts t.book.accounts
  runs : s.runsAfter p.ride b →
    (t.rideBook p.ride).windows = (b.place s.minute).windows ∧ (t.rideBook p.ride).u = (b.place s.minute).u
  stands : ¬s.runsAfter p.ride b → (t.rideBook p.ride).windows = b.windows ∧ (t.rideBook p.ride).u = b.u
  f : (t.rideBook p.ride).f = b.f
  rides : OthersKept p.ride s.book.rides t.book.rides
  time : t.time = s.time
  units : t.units = s.units
  ests : t.ests = s.ests
  poller : t.poller = s.poller
  boards : t.boards = s.boards
  port : PortKept s t

theorem cancelled_rideBook {n : Nat} {p : Pass} (s : State) {f : RideBook → RideBook} (hf : f {} = {}) :
    (s.cancelled n p f).rideBook p.ride = f (s.rideBook p.ride) := by
  rw [State.cancelled, rideBook_congr (s := retirePass n .voided (s.modBook p.ride f)) (t := s.modBook p.ride f) (by simp),
    modBook_rideBook_of_empty s p.ride hf]

theorem cancelled_of_placed {n : Nat} {p : Pass} {s t : State} {f : RideBook → RideBook}
    (hp : s.book.passes.find n = some p) (hf : f {} = {}) (h : Placed p.ride (s.cancelled n p f) t) :
    Cancelled n p (f (s.rideBook p.ride)) s t := by
  have hbook := cancelled_rideBook (n := n) (p := p) s hf
  have heq := retirePass_some (s := s.modBook p.ride f) .voided hp
  have honly : BookOnly s (s.cancelled n p f) := by rw [State.cancelled, heq]; rfl
  have hj := h.judged
  have hplaced : (s.runsAfter p.ride (f (s.rideBook p.ride)) →
        (s.cancelled n p f).placedBook p.ride = (f (s.rideBook p.ride)).place s.minute) ∧
      (¬s.runsAfter p.ride (f (s.rideBook p.ride)) →
        (s.cancelled n p f).placedBook p.ride = f (s.rideBook p.ride)) := by
    rw [State.placedBook, hbook, honly.units, honly.minute]
    exact ⟨fun hr => if_pos hr, fun hr => if_neg hr⟩
  obtain ⟨hruns, hstands⟩ := hplaced
  exact {
    pass := by
      rw [hj.passes, State.cancelled, retirePass_find, State.modBook_book, hp, Option.map_some, if_pos rfl]
      rfl
    others := fun j hj' => by
      rw [hj.passes, State.cancelled, retirePass_find]
      simp [hj']
    retired := by rw [hj.retired, State.cancelled, heq]; rfl
    activeCount := by rw [hj.activeCount, State.cancelled, heq]; rfl
    serial := by rw [hj.serial, State.cancelled, heq]; rfl
    account := fun a ha => by
      rw [hj.accounts, State.cancelled, heq]
      simp [ha]
    accounts := fun j hj' => by
      rw [hj.accounts, State.cancelled, heq]
      simp [Ne.symm hj']
    runs := fun hr => ⟨by rw [h.windows, hruns hr], by rw [h.u, hruns hr]⟩
    stands := fun hr => ⟨by rw [h.windows, hstands hr], by rw [h.u, hstands hr]⟩
    f := by rw [h.f, hbook]
    rides := by
      refine othersKept_trans (othersKept_trans (modBook_others p.ride f s) (othersKept_of_eq p.ride ?_)) h.others
      simp [State.cancelled]
    time := hj.time.trans honly.time
    units := hj.units.trans honly.units
    ests := hj.ests.trans honly.ests
    poller := hj.poller.trans honly.poller
    boards := hj.boards.trans honly.boards
    port := portKept_trans (portKept_of_eq honly.port) hj.port }

/-- The book of a ride without the guests of a FLEX pass. -/
def RideBook.withoutFlex (n : Nat) (b : RideBook) : RideBook := { b with f := b.f - n, u := min b.u (b.f - n) }

/-- The book of a ride without pass `n`, with `k` guests to come, on window `i`. -/
def RideBook.withoutPass (m i n k : Nat) (b : RideBook) : RideBook :=
  { b with windows := b.windows.modify i fun w =>
    { w with issued := if m < w.endMin then w.issued - k else w.issued, passes := w.passes.filter (· ≠ n) } }

theorem withoutFlex_empty (n : Nat) : RideBook.withoutFlex n {} = {} := by simp [RideBook.withoutFlex]

theorem withoutPass_empty (m i n k : Nat) : RideBook.withoutPass m i n k {} = {} := by simp [RideBook.withoutPass]

theorem voidIssued_placed (n : Nat) (p : Pass) (s : State) : Placed p.ride
    (s.cancelled n p (RideBook.withoutPass s.minute p.window n p.remaining)) (voidIssued n p s) :=
  (((placed_place p.ride _).levels (judgeSlots_levels _ _) (judged_judgeSlots _ _)).levels
    (judgeFlex_levels _ _) (judged_judgeFlex _ _)).levels (judgeBook_levels _ _) (judged_judgeBook _)

theorem voidFlex_placed (n : Nat) (p : Pass) (s : State) : Placed p.ride
    (s.cancelled n p (RideBook.withoutFlex p.remaining)) (voidFlex n p s) :=
  (placed_judged p.ride _).levels (judgeBook_levels _ _) (judged_judgeBook _)

theorem voidIssued_cancelled {n : Nat} {p : Pass} {s : State} (hp : s.book.passes.find n = some p) :
    Cancelled n p ((s.rideBook p.ride).withoutPass s.minute p.window n p.remaining) s (voidIssued n p s) :=
  cancelled_of_placed hp (withoutPass_empty _ _ _ _) (voidIssued_placed n p s)

theorem voidFlex_cancelled {n : Nat} {p : Pass} {s : State} (hp : s.book.passes.find n = some p) :
    Cancelled n p ((s.rideBook p.ride).withoutFlex p.remaining) s (voidFlex n p s) :=
  cancelled_of_placed hp (withoutFlex_empty _) (voidFlex_placed n p s)

/-! ### The request (R126 to R128) -/

theorem exec_void (tag n : Nat) (s : State) : exec (.void tag n) s = .next (portStep tag (.void n) s) := rfl

theorem voidView_found {n : Nat} {s : State} {p : Pass} (hp : s.book.passes.find n = some p) (x : Option Nat) :
    voidView n x s = { ride := some p.ride, window := some p.window, state := some p.state
                       remaining := some p.remaining, returned := x } := by
  simp only [voidView, hp]

section

variable {s s1 : State} {n : Nat} {found p : Pass} (hd : s.time.day = .day) (h1 : 1 ≤ n) (h2 : n ≤ 16777215)
  (hfound : s.book.passes.find n = some found) (hearly : earlyResolution found s = s1)
  (hp : s1.book.passes.find n = some p)
include hd h1 h2 hfound hearly hp

theorem serveVoid_issued (hst : p.state = .issued) : serveVoid n s = (voidIssued n p s1,
    .void .done n (voidView n (some (s1.voidReturned p)) (voidIssued n p s1))) := by
  simp only [serveVoid, (dayRefusal_none_iff _).mpr hd, passMalformed_false h1 h2, Bool.false_eq_true, if_false, hfound,
    hearly, hp, hst]

theorem serveVoid_flex (hst : p.state = .flex) :
    serveVoid n s = (voidFlex n p s1, .void .done n (voidView n none (voidFlex n p s1))) := by
  simp only [serveVoid, (dayRefusal_none_iff _).mpr hd, passMalformed_false h1 h2, Bool.false_eq_true, if_false, hfound,
    hearly, hp, hst]

theorem serveVoid_expired (hst : p.state = .expired) :
    serveVoid n s = (judgeRequest p.ride s1, .void .badState n (voidView n none s1)) := by
  simp only [serveVoid, (dayRefusal_none_iff _).mpr hd, passMalformed_false h1 h2, Bool.false_eq_true, if_false, hfound,
    hearly, hp, hst]

end

theorem void_answered {tag n : Nat} {s u : State} {body : ReplyBody} (hoff : Offered tag (.void n) s)
    (hd : s.time.day = .day) (hserve : serveVoid n s.popInput = (u, body)) :
    exec (.void tag n) s = .next (enterReply (.reply tag 14 body) u) ∧
      ∃ t, exec (.void tag n) s = .next t ∧ AnsweredAs (.reply tag 14 body) u t := by
  have hgate := (gateServe_pass tag (.void n) s.popInput (.inl (day_ne_opening hd))).trans (congrArg answered hserve)
  have hwait := (moves_serveVoid n s.popInput).waiting_nil (popInput_waiting hoff)
  rw [hserve] at hwait
  exact ⟨exec_answered (exec_void ..) hoff hgate, exec_answeredAs (exec_void ..) hoff hgate hwait⟩

/-- Placement is about the windows, the guests not placed and the end of the grid. -/
theorem place_congr {m : Nat} {a b : RideBook} (hw : a.windows = b.windows) (hu : a.u = b.u)
    (hg : a.gridEnded = b.gridEnded) : (a.place m).windows = (b.place m).windows ∧ (a.place m).u = (b.place m).u := by
  have hlead : leadIndex a m = leadIndex b m := by
    unfold leadIndex
    rw [hw, hg]
  unfold RideBook.place
  rw [hlead, hw, hu]
  cases leadIndex b m with
  | none => exact ⟨hw, hu⟩
  | some i => exact ⟨rfl, rfl⟩

theorem Cancelled.answered {n : Nat} {p : Pass} {b : RideBook} {s u t : State} {rcd : Record}
    (h : Cancelled n p b s u) (ht : AnsweredAs rcd u t) : Cancelled n p b s t := by
  have hb := ht.book
  have hride := ht.rideBook p.ride
  exact {
    pass := by rw [hb]; exact h.pass
    others := by rw [hb]; exact h.others
    retired := by rw [hb]; exact h.retired
    activeCount := by rw [hb]; exact h.activeCount
    serial := by rw [hb]; exact h.serial
    account := by rw [hb]; exact h.account
    accounts := by rw [hb]; exact h.accounts
    runs := by rw [hride]; exact h.runs
    stands := by rw [hride]; exact h.stands
    f := by rw [hride]; exact h.f
    rides := by rw [hb]; exact h.rides
    time := ht.time.trans h.time
    units := ht.units.trans h.units
    ests := ht.ests.trans h.ests
    poller := ht.poller.trans h.poller
    boards := ht.boards.trans h.boards
    port := portKept_trans h.port ht.port }

theorem Cancelled.placed {n : Nat} {p : Pass} {b : RideBook} {s t : State} (h : Cancelled n p b s t) {runs : Bool}
    (hruns : runs = true ↔ s.runsAfter p.ride b) :
    (t.rideBook p.ride).windows = (if runs then b.place s.minute else b).windows ∧
    (t.rideBook p.ride).u = (if runs then b.place s.minute else b).u := by
  cases runs with
  | true => exact h.runs (hruns.mp rfl)
  | false => exact h.stands fun hr => Bool.false_ne_true (hruns.mpr hr)

/-- The same, told of a state `e` that is `s` with the ride's levels judged. -/
theorem Cancelled.of_levels {n : Nat} {p : Pass} {s e t : State} {b b' : RideBook} (h : Cancelled n p b s t)
    (hl : LevelsOnly p.ride s e) (hj : Judged s e) (hw : b'.windows = b.windows) (hu : b'.u = b.u) (hf : b'.f = b.f)
    (hg : b'.gridEnded = b.gridEnded) (hport : PortKept e t) : Cancelled n p b' e t := by
  have hminute : e.minute = s.minute := congrArg (·.clock / 60) hj.time
  have hruns : e.runsAfter p.ride b' ↔ s.runsAfter p.ride b := by
    rw [State.runsAfter, State.runsAfter, hj.units, hu]
  obtain ⟨hplacew, hplaceu⟩ := place_congr (m := s.minute) hw hu hg
  exact {
    pass := by rw [hminute]; exact h.pass
    others := by rw [hj.passes]; exact h.others
    retired := by rw [hj.retired]; exact h.retired
    activeCount := by rw [hj.activeCount]; exact h.activeCount
    serial := by rw [hj.serial]; exact h.serial
    account := by rw [hj.accounts]; exact h.account
    accounts := by rw [hj.accounts]; exact h.accounts
    runs := fun hr => by rw [hminute, hplacew, hplaceu]; exact h.runs (hruns.mp hr)
    stands := fun hr => by rw [hw, hu]; exact h.stands fun hs => hr (hruns.mpr hs)
    f := h.f.trans hf.symm
    rides := fun r hr => by rw [hl.others r hr]; exact h.rides r hr
    time := h.time.trans hj.time.symm
    units := h.units.trans hj.units.symm
    ests := h.ests.trans hj.ests.symm
    poller := h.poller.trans hj.poller.symm
    boards := h.boards.trans hj.boards.symm
    port := hport }

theorem portKept_symm {s t : State} (h : PortKept s t) : PortKept t s :=
  ⟨h.receiver.symm, h.input.symm, h.restartPending.symm, h.crcErrors.symm, h.timeouts.symm, h.overruns.symm,
    h.sending.symm⟩

/-- A VOID that cancels, and the view its reply shows. -/
theorem void_cancels {tag n : Nat} {s : State} {p : Pass} {b : RideBook} (hoff : Offered tag (.void n) s)
    (hd : s.time.day = .day) (h1 : 1 ≤ n) (h2 : n ≤ 16777215) (hp : s.book.passes.find n = some p)
    (hst : p.state = .flex ∨ (p.state = .issued ∧ ∃ w, s.windowOf p = some w ∧ s.dayPassed w.graceEnd = false))
    (hflex : p.state = .flex → b = (s.rideBook p.ride).withoutFlex p.remaining)
    (hissued : p.state = .issued → b = (s.rideBook p.ride).withoutPass s.minute p.window n p.remaining) :
    ∃ t, exec (.void tag n) s = .next t ∧ Cancelled n p b s.popInput t ∧ Replied (.reply tag 14 (.void .done n
      { ride := some p.ride, window := some p.window, state := some .voided, remaining := some p.remaining
        returned := if p.state = .flex then none else (s.windowOf p).map fun w =>
          if s.minute < w.endMin then p.remaining else 0 })) t := by
  have hnone := earlyResolution_none (s := s.popInput) hst
  rcases hst with hst | ⟨hst, w, hw, -⟩
  · have hcancel := voidFlex_cancelled (s := s.popInput) hp
    obtain ⟨-, t, hexec, ht⟩ := void_answered hoff hd (serveVoid_flex (s := s.popInput) hd h1 h2 hp hnone hp hst)
    rw [voidView_found hcancel.pass] at ht
    rw [if_pos hst, hflex hst]
    exact ⟨t, hexec, hcancel.answered ht, ht.replied⟩
  · have hcancel := voidIssued_cancelled (s := s.popInput) hp
    obtain ⟨-, t, hexec, ht⟩ := void_answered hoff hd (serveVoid_issued (s := s.popInput) hd h1 h2 hp hnone hp hst)
    have hreturned : s.popInput.voidReturned p = if s.minute < w.endMin then p.remaining else 0 := by
      have hw : s.popInput.windowOf p = some w := hw
      simp only [State.voidReturned, hw]
      rfl
    rw [voidView_found hcancel.pass, hreturned] at ht
    rw [if_neg (by rw [hst]; nofun), hissued hst, hw, Option.map_some]
    exact ⟨t, hexec, hcancel.answered ht, ht.replied⟩

/-- Settles O30: the pass is retired as VOIDED, its guests leave the ride's book, placement runs where it does and the
levels are judged; a pass past its window's grace has the window resolved first. -/
theorem voidCancels : Obligations.VoidCancels := by
  refine ⟨?cancels, ?early⟩
  case cancels =>
    intro tag n s p b runs hoff hd h1 h2 hp hst hb hruns
    obtain ⟨t, hexec, hc, hreply⟩ := void_cancels (b := b) hoff hd h1 h2 hp hst
      (fun hflex => hb.trans (if_pos hflex)) (fun hissued => hb.trans (if_neg (by rw [hissued]; nofun)))
    obtain ⟨hwindows, hu⟩ := hc.placed (runs := runs) (by rw [hruns]; exact decide_eq_true_iff)
    exact ⟨t, _, hexec, hc.pass, hc.others, hc.retired, hc.activeCount, hc.serial, hc.account, hc.accounts, hwindows,
      hu, hc.f, hc.rides, rfl, hreply, hc.time, hc.units, hc.ests, hc.poller, hc.boards, hc.port⟩
  case early =>
    intro tag n s e d p p1 w b runs hoff hd h1 h2 hp hst hw hpassed hevents he hp1 hb hruns
    have hearly := earlyResolution_some (s := s.popInput) hst hw hpassed
    have hres := resolving_resolveUpTo p.ride p.window s.popInput
    obtain ⟨s1, hs1⟩ : ∃ s1, s1 = resolveUpTo p.ride p.window s.popInput := ⟨_, rfl⟩
    rw [← hs1] at hearly hres
    have hend : e = judgeRequest p.ride s1 := by
      rw [hs1]
      exact he.trans (take_windows_single hevents p.ride s.popInput)
    have hej := judgeRequest_judged p.ride s1
    have hel := judgeRequest_levels p.ride s1
    rw [← hend] at hej hel
    rw [hej.passes] at hp1
    obtain ⟨hride, hwindow⟩ := hres.pass hp hp1
    refine ⟨fun hexp => ?_, fun hflex => ?_⟩
    · have hserve := serveVoid_expired (s := s.popInput) hd h1 h2 hp hearly hp1 hexp
      rw [(void_answered hoff hd hserve).1, voidView_found hp1, hride, hwindow, hexp, ← hend]
    · have hserve := serveVoid_flex (s := s.popInput) hd h1 h2 hp hearly hp1 hflex
      have hcancel := voidFlex_cancelled hp1
      obtain ⟨-, t, hexec, ht⟩ := void_answered hoff hd hserve
      have hminute : s1.minute = s.minute := congrArg (·.clock / 60) hres.time
      have hreply := ht.replied
      rw [voidView_found hcancel.pass] at hreply
      have hall := hcancel.answered ht
      rw [← hride] at hb hruns hel ⊢
      have hof := hall.of_levels (e := e) (b' := b) hel hej (by rw [hb]; exact hel.windows)
        (by rw [hb, hel.u, hel.f]; rfl) (by rw [hb, hel.f]; rfl) (by rw [hb]; exact hel.gridEnded)
        (portKept_trans (portKept_symm hej.port) hall.port)
      obtain ⟨hwindows, hu⟩ := hof.placed (runs := runs) (by rw [hruns]; exact decide_eq_true_iff)
      have heminute : e.minute = s.minute := (congrArg (·.clock / 60) hej.time).trans hminute
      rw [heminute] at hwindows hu
      have hpass := hof.pass
      rw [heminute] at hpass
      rw [← hwindow]
      exact ⟨t, hexec, hpass, hof.others, hof.retired, hof.activeCount, hwindows, hu, hof.f, hof.rides, hreply,
        hof.time, hof.units, hof.ests, hof.poller, hof.boards, portKept_trans hres.port hall.port⟩

end Sys2Proof.Machine
end

section
/-! The end of the day: O15. -/

namespace Sys2Proof.Machine

open Sys2Proof.Safety

/-! ### Books at rest: nothing left to place or to mark -/

/-- A ride's book with every window resolved and no guest to place. -/
structure RideBook.AtRest (b : RideBook) : Prop where
  resolved : ∀ w ∈ b.windows, w.resolved = true
  u : b.u = 0
  flexLevel : b.flexLevel = false

/-- Every ride's book is at rest, and no report is left over. -/
structure BooksAtRest (s : State) : Prop where
  rides : ∀ r b, s.book.rides.find r = some b → b.AtRest
  late : s.book.late = []

/-- `t` is `s` but for SLOTS levels, as far as the books of the rides go. -/
structure SlotsOnly (s t : State) : Prop where
  keys : t.book.rides.keys = s.book.rides.keys
  rides : ∀ r b, s.book.rides.find r = some b → ∃ l, t.book.rides.find r = some { b with slotsLevel := l }
  late : t.book.late = s.book.late

theorem SlotsOnly.of_book {s t : State} (h : t.book.rides = s.book.rides) (hl : t.book.late = s.book.late) :
    SlotsOnly s t :=
  ⟨by rw [h], fun r b hb => ⟨b.slotsLevel, by rw [h, hb]⟩, hl⟩

theorem SlotsOnly.trans {s t u : State} (h : SlotsOnly s t) (g : SlotsOnly t u) : SlotsOnly s u := by
  refine ⟨g.keys.trans h.keys, fun r b hb => ?_, g.late.trans h.late⟩
  obtain ⟨l, hl⟩ := h.rides r b hb
  obtain ⟨m, hm⟩ := g.rides r _ hl
  exact ⟨m, hm⟩

theorem BooksAtRest.slotsOnly {s t : State} (h : BooksAtRest s) (g : SlotsOnly s t) : BooksAtRest t := by
  refine ⟨fun r b hb => ?_, g.late.trans h.late⟩
  have hkey : r ∈ t.book.rides.keys := (mem_keys_iff _ _).mpr (by rw [hb]; rfl)
  rw [g.keys, mem_keys_iff] at hkey
  obtain ⟨b0, hb0⟩ := Option.isSome_iff_exists.mp hkey
  obtain ⟨l, hl⟩ := g.rides r b0 hb0
  obtain rfl := Option.some.inj (hb.symm.trans hl)
  have hrest := h.rides r b0 hb0
  exact ⟨hrest.resolved, hrest.u, hrest.flexLevel⟩

theorem judgeSlots_keys (r : Nat) (s : State) : (judgeSlots r s).book.rides.keys = s.book.rides.keys := by
  unfold judgeSlots
  split
  · rfl
  · simp

theorem judgeFlex_keys (r : Nat) (s : State) : (judgeFlex r s).book.rides.keys = s.book.rides.keys := by
  unfold judgeFlex
  dsimp only
  split
  · rfl
  · simp

theorem judgeFlex_late (r : Nat) (s : State) : (judgeFlex r s).book.late = s.book.late := by
  unfold judgeFlex
  dsimp only
  split
  · rfl
  · simp

theorem judgeBook_late (s : State) : (judgeBook s).book.late = s.book.late := by
  unfold judgeBook
  split
  · rfl
  · simp

theorem markWindows_book (r : Nat) (since : Option Nat) (s : State) :
    (markWindows r since s).book.rides.keys = s.book.rides.keys ∧ (markWindows r since s).book.late = s.book.late := by
  cases since with
  | none => exact ⟨rfl, rfl⟩
  | some c => exact ⟨by simp [markWindows], rfl⟩

/-- SLOTS is all that its judgement writes. -/
theorem slotsOnly_judgeSlots (r : Nat) (s : State) : SlotsOnly s (judgeSlots r s) := by
  refine ⟨judgeSlots_keys r s, fun k b hb => ?_, judgeSlots_late r s⟩
  by_cases hk : k = r
  · subst hk
    exact ⟨_, judgeSlots_level hb⟩
  · exact ⟨b.slotsLevel, ((judgeSlots_levels r s).others k hk).trans hb⟩

/-- Nothing is marked in a book at rest. -/
theorem slotsOnly_markWindows {s : State} (h : BooksAtRest s) (r : Nat) (since : Option Nat) :
    SlotsOnly s (markWindows r since s) := by
  obtain ⟨hkeys, hlate⟩ := markWindows_book r since s
  refine ⟨hkeys, fun k b hb => ⟨b.slotsLevel, ?_⟩, hlate⟩
  have hself := marked_resolved_self (since := since) (h.rides k b hb).resolved
  cases since with
  | none => exact hb
  | some c =>
    by_cases hk : r = k
    · subst hk
      simp only [markWindows, State.modBook_book, Table.find_update, if_true, hb, Option.map_some]
      exact congrArg some hself
    · simp only [markWindows, State.modBook_book, Table.find_update, if_neg hk, hb]

/-- No placement runs in a book at rest, and FLEX stays as it is. -/
theorem place_atRest {s : State} (h : BooksAtRest s) (r : Nat) : judgeFlex r (place r s) = s := by
  have hrest : (s.rideBook r).AtRest := by
    cases hb : s.book.rides.find r with
    | none => rw [rideBook_of_absent hb]; exact ⟨fun w hw => absurd hw List.not_mem_nil, rfl, rfl⟩
    | some b => rw [rideBook_of_find hb]; exact h.rides r b hb
  have hplace : place r s = s := (place_rideBook r s).2 fun hr => by
    have hpos := hr.2
    rw [hrest.u] at hpos
    exact absurd hpos (Nat.lt_irrefl 0)
  rw [hplace, judgeFlex, hrest.u, hrest.flexLevel]
  exact if_pos rfl

theorem bookHears_atRest {s : State} (h : BooksAtRest s) (r : Nat) (new : RideState) (since : Option Nat) :
    SlotsOnly s (bookHears r new since s) := by
  have hmark : SlotsOnly s (if new.inService then s else markWindows r since s) := by
    split
    · exact .of_book rfl rfl
    · exact slotsOnly_markWindows h r since
  have hrest := h.slotsOnly hmark
  unfold bookHears
  dsimp only
  generalize (if new.inService then s else markWindows r since s) = x at hmark hrest
  rw [place_atRest hrest, ite_self]
  exact hmark.trans (slotsOnly_judgeSlots r x)

/-- The late reports of books at rest mark nothing. -/
theorem takeLate_atRest {s : State} (h : ∀ r b, s.book.rides.find r = some b → b.AtRest) :
    BooksAtRest (takeLate (fun _ => true) s) ∧
      SlotsOnly { s with book := { s.book with late := [] } } (takeLate (fun _ => true) s) := by
  have hfold : ∀ (reps : List StateReport) (x : State), BooksAtRest x →
      SlotsOnly x (reps.foldl (fun s rep => bookHears rep.ride rep.new rep.since s) x) := by
    intro reps
    induction reps with
    | nil => exact fun x _ => .of_book rfl rfl
    | cons rep reps ih =>
      intro x hx
      have hstep := bookHears_atRest hx rep.ride rep.new rep.since
      exact hstep.trans (ih _ (hx.slotsOnly hstep))
  have hnone : s.book.late.filter (fun _ => !true) = [] := by simp
  have hstart : BooksAtRest { s with book := { s.book with late := [] } } := ⟨h, rfl⟩
  have hall := hfold (s.book.late.filter fun _ => true) _ hstart
  have heq : takeLate (fun _ => true) s = (s.book.late.filter fun _ => true).foldl
      (fun s rep => bookHears rep.ride rep.new rep.since s) { s with book := { s.book with late := [] } } := by
    rw [takeLate, hnone]
  rw [heq]
  exact ⟨hstart.slotsOnly hall, hall⟩

theorem reportToBook_atRest {s : State} (h : BooksAtRest s) (rep : StateReport) :
    SlotsOnly s (reportToBook rep s) := by
  have hmeets : s.meetsGraceEnd rep = false := meetsGraceEnd_resolved fun w hw => by
    cases hb : s.book.rides.find rep.ride with
    | none =>
      rw [rideBook_of_absent hb] at hw
      exact absurd hw List.not_mem_nil
    | some b =>
      rw [rideBook_of_find hb] at hw
      exact (h.rides rep.ride b hb).resolved w hw
  rw [reportToBook_atOnce rep s hmeets, takeLate_none _ s h.late]
  exact bookHears_atRest h rep.ride rep.new rep.since

theorem changeState_atRest {s : State} (h : BooksAtRest s) (r : Nat) (new : RideState) :
    SlotsOnly s (changeState r new s) := by
  cases hu : s.units.find r with
  | none =>
    rw [changeState, hu]
    exact .of_book rfl rfl
  | some u =>
    obtain ⟨y, hybook, -, -, hbook⟩ := changeState_book new hu
    have hy : SlotsOnly s y := .of_book (by rw [hybook]) (by rw [hybook])
    have hreport := hy.trans (reportToBook_atRest (h.slotsOnly hy) (stateReport r u new s))
    exact hreport.trans (.of_book (by rw [hbook]) (by rw [hbook]))

end Sys2Proof.Machine
end

section
/-! CLOSEDAY: O15. -/

namespace Sys2Proof.Machine

open Sys2Proof.Safety

/-! ### What the end of the day leaves as it is -/

/-- Of `s`, `t` keeps the day, the poller, the passes with their accounts, and the port. -/
structure DayKept (s t : State) : Prop where
  time : t.time = s.time
  poller : t.poller = s.poller
  passes : t.book.passes = s.book.passes
  retired : t.book.retired = s.book.retired
  serial : t.book.serial = s.book.serial
  accounts : t.book.accounts = s.book.accounts
  activeCount : t.book.activeCount = s.book.activeCount
  port : PortKept s t

theorem DayKept.refl (s : State) : DayKept s s := ⟨rfl, rfl, rfl, rfl, rfl, rfl, rfl, portKept_of_eq rfl⟩

theorem DayKept.trans {s t u : State} (h : DayKept s t) (g : DayKept t u) : DayKept s u :=
  ⟨g.time.trans h.time, g.poller.trans h.poller, g.passes.trans h.passes, g.retired.trans h.retired,
    g.serial.trans h.serial, g.accounts.trans h.accounts, g.activeCount.trans h.activeCount,
    portKept_trans h.port g.port⟩

theorem Judged.dayKept {s t : State} (h : Judged s t) : DayKept s t :=
  ⟨h.time, h.poller, h.passes, h.retired, h.serial, h.accounts, h.activeCount, h.port⟩

theorem RideOnly.dayKept {r : Nat} {s t : State} (h : RideOnly r s t) : DayKept s t :=
  ⟨h.time, h.poller, h.book.passes.passes, h.book.passes.retired, h.book.passes.serial, h.book.passes.accounts,
    h.book.passes.activeCount, h.port⟩

theorem dayKept_takeLate (pick : StateReport → Bool) (s : State) : DayKept s (takeLate pick s) := by
  refine ⟨?_, ?_, ?_, ?_, ?_, ?_, ?_, ⟨?_, ?_, ?_, ?_, ?_, ?_, ?_⟩⟩ <;> simp

/-! ### Every active pass expires (R11) -/

/-- Updates that a later change of every record overwrites leave no trace. -/
theorem Table.each_update {α β : Type} (t : Table α) (k : Nat) (f : α → α) (g : Nat → α → β)
    (h : ∀ j a, g j (f a) = g j a) : (t.update k f).each g = t.each g := by
  induction t with
  | nil => rfl
  | cons x t ih =>
    obtain ⟨j, a⟩ := x
    by_cases hj : j = k
    · simp [Table.update, Table.each, hj, h, ih]
    · simp [Table.update, Table.each, hj, ih]

theorem Table.mem_filter_keys {α : Type} {t : Table α} (hwf : t.wf) (p : Nat × α → Bool) (k : Nat) :
    k ∈ Table.keys (t.filter p) ↔ ∃ a, t.find k = some a ∧ p (k, a) = true := by
  have hkeys : ∀ u : Table α, k ∈ u.keys ↔ ∃ a, (k, a) ∈ u := fun u => by
    induction u with
    | nil => simp [Table.keys]
    | cons x u ih =>
      obtain ⟨j, a⟩ := x
      simp only [Table.keys, List.mem_cons, ih, Prod.mk.injEq]
      exact ⟨fun h => h.elim (fun h => ⟨a, .inl ⟨h, rfl⟩⟩) fun ⟨b, hb⟩ => ⟨b, .inr hb⟩,
        fun ⟨b, hb⟩ => hb.elim (fun h => .inl h.1) fun h => .inr ⟨b, h⟩⟩
  rw [hkeys]
  refine exists_congr fun a => ?_
  rw [List.mem_filter]
  exact and_congr_left fun _ => ⟨Table.find_of_mem t hwf (k, a), Table.mem_of_find t k a⟩

theorem Table.filter_keys_sublist {α : Type} (t : Table α) (p : Nat × α → Bool) :
    (Table.keys (t.filter p)).Sublist t.keys := by
  induction t with
  | nil => exact .slnil
  | cons x t ih =>
    rw [List.filter_cons]
    split
    · exact ih.cons_cons x.1
    · exact ih.cons x.1

/-- The active passes of a well formed pass table, in increasing number. -/
theorem activeKeys_eq {passes : Table Pass} (hwf : passes.wf) {active : List Nat} (hsorted : active.Pairwise (· < ·))
    (hmem : ∀ n, n ∈ active ↔ ∃ p, passes.find n = some p ∧ (p.state = .issued ∨ p.state = .flex)) :
    Table.keys (passes.filter fun np => np.2.state = .issued || np.2.state = .flex) = active := by
  refine List.Pairwise.eq_of_mem_iff (hwf.sublist (Table.filter_keys_sublist _ _)) hsorted fun n => ?_
  rw [Table.mem_filter_keys hwf, hmem]
  simp

/-- An account with no active pass. -/
def Account.cleared (a : Account) : Account := { a with active := [] }

theorem retirePass_accounts_cleared (st : PassState) (n : Nat) (s : State) :
    (retirePass n st s).book.accounts.each (fun _ => Account.cleared) =
      s.book.accounts.each fun _ => Account.cleared := by
  cases h : s.book.passes.find n with
  | none => rw [retirePass_none st h]
  | some p =>
    rw [retirePass_some st h]
    exact Table.each_update _ _ _ _ fun _ _ => rfl

/-- What the expiry of the active passes leaves (R11, R105, R106). -/
structure Expired (active : List Nat) (s t : State) : Prop where
  only : BookOnly s t
  rides : t.book.rides = s.book.rides
  late : t.book.late = s.book.late
  serial : t.book.serial = s.book.serial
  passes : ∀ n, t.book.passes.find n =
    (s.book.passes.find n).map fun p => if n ∈ active then p.retired .expired s.minute else p
  retired : t.book.retired = s.book.retired ++ active
  activeCount : t.book.activeCount = s.book.activeCount - active.length
  accounts : t.book.accounts = s.book.accounts.each fun _ => Account.cleared

theorem expireAll_expired {s : State} (hwf : s.book.passes.wf) {active : List Nat} (hsorted : active.Pairwise (· < ·))
    (hmem : ∀ n, n ∈ active ↔ ∃ p, s.book.passes.find n = some p ∧ (p.state = .issued ∨ p.state = .flex)) :
    Expired active s (expireAll s) := by
  have hfound : ∀ n ∈ active, s.book.passes.find n ≠ none := fun n hn => by
    obtain ⟨p, hp, -⟩ := (hmem n).mp hn
    rw [hp]
    exact Option.some_ne_none p
  obtain ⟨honly, hrides, hlate⟩ := foldl_retire_keeps .expired active s
  obtain ⟨hretired, hcount⟩ := foldl_retire_counts .expired active hfound
  have haccounts := foldl_keeps (fun s => s.book.accounts.each fun _ => Account.cleared)
    (fun s n => retirePass n .expired s) (fun s n => retirePass_accounts_cleared .expired n s) active s
  have hserial := foldl_keeps (fun s => s.book.serial) (fun s n => retirePass n .expired s)
    (fun s n => by simp) active s
  have hpasses := foldl_retire_find .expired active s
  unfold expireAll
  simp only [activeKeys_eq hwf hsorted hmem]
  exact ⟨honly.trans rfl, hrides, hlate, hserial, hpasses, hretired, hcount, haccounts⟩

/-! ### Every window is resolved (R11, R95, R101) -/

/-- The book of a ride at the end of the day. -/
def RideBook.atDayEnd (b : RideBook) : RideBook :=
  { b with windows := b.windows.map Window.settle, f := 0, u := 0, flexLevel := false }

theorem RideBook.atDayEnd_atRest (b : RideBook) : b.atDayEnd.AtRest := by
  refine ⟨fun w hw => ?_, rfl, rfl⟩
  obtain ⟨w', -, rfl⟩ := List.mem_map.mp hw
  rfl

theorem foldl_judgeFlex_find (ks : List Nat) {s : State} {r : Nat} {b : RideBook}
    (hb : s.book.rides.find r = some b) : (ks.foldl (fun s r => judgeFlex r s) s).book.rides.find r =
      some (if r ∈ ks then { b with flexLevel := decide (0 < b.u) } else b) := by
  induction ks generalizing s b with
  | nil => exact hb
  | cons k ks ih =>
    rw [List.foldl_cons]
    by_cases hk : r = k
    · subst hk
      rw [ih (judgeFlex_level hb), if_pos List.mem_cons_self, ite_self]
    · rw [ih (((judgeFlex_levels k s).others r hk).trans hb)]
      simp [hk]

/-- The books with every window settled, their levels not yet judged. -/
def State.settledAll (s : State) : State :=
  { s with book := { s.book with
    rides := s.book.rides.each fun _ b => { b with windows := b.windows.map Window.settle, f := 0, u := 0 } } }

theorem resolveAll_eq (s : State) :
    resolveAll s = s.settledAll.book.rides.keys.foldl (fun s r => judgeFlex r s) s.settledAll := rfl

/-- What the resolution of every window leaves (R11). -/
theorem resolveAll_keeps (s : State) :
    DayKept s (resolveAll s) ∧ (resolveAll s).units = s.units ∧ (resolveAll s).ests = s.ests ∧
    (resolveAll s).book.rides.keys = s.book.rides.keys ∧ (resolveAll s).book.late = s.book.late := by
  rw [resolveAll_eq]
  generalize hx : s.settledAll = x
  have hj : Judged x (x.book.rides.keys.foldl (fun s r => judgeFlex r s) x) :=
    judged_foldl (fun s r => judged_judgeFlex r s) _ x
  have hkeys := foldl_keeps (fun s => s.book.rides.keys) (fun s r => judgeFlex r s)
    (fun s r => judgeFlex_keys r s) x.book.rides.keys x
  have hlate := foldl_keeps (fun s => s.book.late) (fun s r => judgeFlex r s)
    (fun s r => judgeFlex_late r s) x.book.rides.keys x
  have hx0 : DayKept s x := by
    rw [← hx]
    exact ⟨rfl, rfl, rfl, rfl, rfl, rfl, rfl, portKept_of_eq rfl⟩
  refine ⟨hx0.trans hj.dayKept, ?_, ?_, ?_, ?_⟩
  · rw [hj.units, ← hx]
    rfl
  · rw [hj.ests, ← hx]
    rfl
  · rw [hkeys, ← hx]
    exact Table.keys_each _ _
  · rw [hlate, ← hx]
    rfl

theorem resolveAll_find {s : State} {r : Nat} {b : RideBook} (hb : s.book.rides.find r = some b) :
    (resolveAll s).book.rides.find r = some b.atDayEnd := by
  rw [resolveAll_eq]
  generalize hx : s.settledAll = x
  have hfind : x.book.rides.find r = some { b with windows := b.windows.map Window.settle, f := 0, u := 0 } := by
    rw [← hx]
    simp [State.settledAll, hb]
  have hkey : r ∈ x.book.rides.keys := (mem_keys_iff _ _).mpr (by rw [hfind]; rfl)
  rw [foldl_judgeFlex_find _ hfind, if_pos hkey]
  rfl

theorem resolveAll_atRest (s : State) (r : Nat) (b : RideBook) (hb : (resolveAll s).book.rides.find r = some b) :
    b.AtRest := by
  obtain ⟨-, -, -, hkeys, -⟩ := resolveAll_keeps s
  have hkey : r ∈ (resolveAll s).book.rides.keys := (mem_keys_iff _ _).mpr (by rw [hb]; rfl)
  rw [hkeys, mem_keys_iff] at hkey
  obtain ⟨b0, hb0⟩ := Option.isSome_iff_exists.mp hkey
  obtain rfl := Option.some.inj (hb.symm.trans (resolveAll_find hb0))
  exact b0.atDayEnd_atRest

/-! ### Every ride is closed (R27, R40) -/

/-- A ride record at the end of the day: CLOSED, and the stall timer of a ride already CLOSED is 0. -/
def RideUnit.atDayEnd (since : Option Nat) (u : RideUnit) : RideUnit :=
  if u.state = .closed then { u with stall := 0 }
  else { u with state := .closed, since := since, stall := 0, testDispatches := 0, testMinutes := 0 }

/-- An estimator record at the end of the day: it hears CLOSED, unless its ride was CLOSED already. -/
def Estimator.atDayEnd (u : RideUnit) (e : Estimator) : Estimator :=
  if u.state = .closed then e else { e with q := 0, eligible := false, wait := none }

theorem RideUnit.atDayEnd_closed (since : Option Nat) (u : RideUnit) : (u.atDayEnd since).state = .closed := by
  unfold RideUnit.atDayEnd
  split
  next h => exact h
  next => rfl

theorem RideUnit.atDayEnd_atDayEnd (since : Option Nat) (u : RideUnit) :
    (u.atDayEnd since).atDayEnd since = u.atDayEnd since := by
  rw [RideUnit.atDayEnd, if_pos (u.atDayEnd_closed since)]
  unfold RideUnit.atDayEnd
  split <;> rfl

theorem enterState_closed (r : Nat) (s : State) : enterState r .closed s = changeState r .closed s := by
  unfold enterState
  dsimp only
  exact if_neg nofun

theorem rideOnly_closeRideAtDayEnd (r : Nat) (s : State) : RideOnly r s (closeRideAtDayEnd s r) := by
  unfold closeRideAtDayEnd
  split
  · exact .refl r s
  · split
    · exact rideOnly_modUnit r _ s
    · exact (rideOnly_enterState r .closed s).trans (rideOnly_modUnit r _ _)

theorem slotsOnly_closeRideAtDayEnd {s : State} (h : BooksAtRest s) (r : Nat) :
    SlotsOnly s (closeRideAtDayEnd s r) := by
  unfold closeRideAtDayEnd
  split
  · exact .of_book rfl rfl
  · split
    · exact .of_book rfl rfl
    · rw [closeRide, enterState_closed]
      exact (changeState_atRest h r .closed).trans (.of_book rfl rfl)

theorem closeRideAtDayEnd_unit {r : Nat} {s : State} {u : RideUnit} (hu : s.units.find r = some u) :
    (closeRideAtDayEnd s r).units.find r = some (u.atDayEnd s.clockNow) := by
  unfold closeRideAtDayEnd RideUnit.atDayEnd
  rw [hu]
  dsimp only
  split
  next => simp [hu]
  next => simp [closeRide, enterState_closed_units, hu, RideUnit.enter]

theorem closeRideAtDayEnd_est {r : Nat} {s : State} {u : RideUnit} {e : Estimator} (hu : s.units.find r = some u)
    (he : s.ests.find r = some e) : (closeRideAtDayEnd s r).ests.find r = some (e.atDayEnd u) := by
  unfold closeRideAtDayEnd Estimator.atDayEnd
  rw [hu]
  dsimp only
  split
  next => exact he
  next =>
    have hheard := changeState_ests_find .closed hu r
    rw [if_pos rfl, he, Option.map_some, heard_closed] at hheard
    rw [closeRide, enterState_closed]
    exact hheard

theorem foldl_closeRideAtDayEnd_keeps (rs : List Nat) {s : State} (h : BooksAtRest s) :
    DayKept s (rs.foldl closeRideAtDayEnd s) ∧ SlotsOnly s (rs.foldl closeRideAtDayEnd s) := by
  induction rs generalizing s with
  | nil => exact ⟨.refl s, .of_book rfl rfl⟩
  | cons r rs ih =>
    have hslots := slotsOnly_closeRideAtDayEnd h r
    obtain ⟨hkept, hrest⟩ := ih (h.slotsOnly hslots)
    exact ⟨(rideOnly_closeRideAtDayEnd r s).dayKept.trans hkept, hslots.trans hrest⟩

theorem closeRideAtDayEnd_clockNow (s : State) (r : Nat) : (closeRideAtDayEnd s r).clockNow = s.clockNow := by
  rw [State.clockNow, (rideOnly_closeRideAtDayEnd r s).time]
  rfl

theorem foldl_closeRideAtDayEnd_unit (rs : List Nat) {s : State} {k : Nat} {u : RideUnit}
    (hu : s.units.find k = some u) : (rs.foldl closeRideAtDayEnd s).units.find k =
      some (if k ∈ rs then u.atDayEnd s.clockNow else u) := by
  induction rs generalizing s u with
  | nil => exact hu
  | cons r rs ih =>
    rw [List.foldl_cons]
    by_cases hk : k = r
    · subst hk
      rw [ih (closeRideAtDayEnd_unit hu), closeRideAtDayEnd_clockNow, RideUnit.atDayEnd_atDayEnd, ite_self,
        if_pos List.mem_cons_self]
    · rw [ih (((rideOnly_closeRideAtDayEnd r s).units k hk).trans hu), closeRideAtDayEnd_clockNow]
      simp [hk]

theorem foldl_closeRideAtDayEnd_est (rs : List Nat) {s : State} {k : Nat} {u : RideUnit} {e : Estimator}
    (hu : s.units.find k = some u) (he : s.ests.find k = some e) :
    (rs.foldl closeRideAtDayEnd s).ests.find k = some (if k ∈ rs then e.atDayEnd u else e) := by
  induction rs generalizing s u e with
  | nil => exact he
  | cons r rs ih =>
    rw [List.foldl_cons]
    by_cases hk : k = r
    · subst hk
      rw [ih (closeRideAtDayEnd_unit hu) (closeRideAtDayEnd_est hu he), if_pos List.mem_cons_self]
      have hdone : (e.atDayEnd u).atDayEnd (u.atDayEnd s.clockNow) = e.atDayEnd u := if_pos (u.atDayEnd_closed _)
      rw [hdone, ite_self]
    · rw [ih (((rideOnly_closeRideAtDayEnd r s).units k hk).trans hu)
        (((rideOnly_closeRideAtDayEnd r s).ests k hk).trans he)]
      simp [hk]

/-! ### The day ended -/

/-- What the end of the day leaves, the day state still to be written (R11, R27). -/
structure DayEnded (active : List Nat) (s t : State) : Prop where
  time : t.time = { s.time with schedule := [], position := 0 }
  units : ∀ r u, s.units.find r = some u → t.units.find r = some (u.atDayEnd s.clockNow)
  ests : ∀ r u e, s.units.find r = some u → s.ests.find r = some e → t.ests.find r = some (e.atDayEnd u)
  passes : ∀ n p, s.book.passes.find n = some p → t.book.passes.find n =
    some (if n ∈ active then p.retired .expired s.minute else p)
  retired : t.book.retired = s.book.retired ++ active
  activeCount : t.book.activeCount = s.book.activeCount - active.length
  accounts : t.book.accounts = s.book.accounts.each fun _ => Account.cleared
  keys : t.book.rides.keys = s.book.rides.keys
  rides : ∀ r b, s.book.rides.find r = some b → ∃ l, t.book.rides.find r = some { b.atDayEnd with slotsLevel := l }
  serial : t.book.serial = s.book.serial
  late : t.book.late = []
  poller : t.poller = s.poller
  port : PortKept s t

theorem mem_rides {s : State} {r : Nat} {u : RideUnit} (hu : s.units.find r = some u) : r ∈ s.rides :=
  (mem_keys_iff s.units r).mpr (by rw [hu]; rfl)

theorem dayEnded_dayEnded {s : State} (hwf : s.book.passes.wf) {active : List Nat} (hsorted : active.Pairwise (· < ·))
    (hmem : ∀ n, n ∈ active ↔ ∃ p, s.book.passes.find n = some p ∧ (p.state = .issued ∨ p.state = .flex)) :
    DayEnded active s (dayEnded s) := by
  unfold dayEnded
  dsimp only
  generalize hs0 : ({ s with time := { s.time with schedule := [], position := 0 } } : State) = s0
  have hbook0 : s0.book = s.book := by rw [← hs0]
  have hexp : Expired active s0 (expireAll s0) :=
    expireAll_expired (by rw [hbook0]; exact hwf) hsorted (by rw [hbook0]; exact hmem)
  generalize expireAll s0 = s1 at hexp
  obtain ⟨hkept2, hunits2, hests2, hkeys2, -⟩ := resolveAll_keeps s1
  have hfind2 : ∀ r b, s1.book.rides.find r = some b → (resolveAll s1).book.rides.find r = some b.atDayEnd :=
    fun r b => resolveAll_find
  obtain ⟨hrest3, hslots3⟩ := takeLate_atRest (resolveAll_atRest s1)
  have hkept3 := dayKept_takeLate (fun _ => true) (resolveAll s1)
  have hunits3 : (takeLate (fun _ => true) (resolveAll s1)).units = (resolveAll s1).units := by simp
  have hests3 : (takeLate (fun _ => true) (resolveAll s1)).ests = (resolveAll s1).ests := by simp
  generalize takeLate (fun _ => true) (resolveAll s1) = s3 at hrest3 hslots3 hkept3 hunits3 hests3
  obtain ⟨hkept4, hslots4⟩ := foldl_closeRideAtDayEnd_keeps s3.rides hrest3
  have hkept := (hkept2.trans hkept3).trans hkept4
  have hslots := hslots3.trans hslots4
  have hunits : s3.units = s.units := by rw [hunits3, hunits2, hexp.only.units, ← hs0]
  have hests : s3.ests = s.ests := by rw [hests3, hests2, hexp.only.ests, ← hs0]
  have htime3 : s3.time = { s.time with schedule := [], position := 0 } := by
    rw [hkept3.time, hkept2.time, hexp.only.time, ← hs0]
  have hclock : s3.clockNow = s.clockNow := by
    rw [State.clockNow, htime3]
    rfl
  have hminute : s0.minute = s.minute := by rw [← hs0]; rfl
  refine ⟨hkept4.time.trans htime3, fun r u hu => ?units, fun r u e hu he => ?ests, fun n p hp => ?passes, ?retired,
    ?count, ?accounts, ?keys, fun r b hb => ?rides, ?serial, hslots4.late.trans hrest3.late, ?poller, ?port⟩
  case units =>
    have hu3 : s3.units.find r = some u := by rw [hunits, hu]
    rw [foldl_closeRideAtDayEnd_unit _ hu3, if_pos (mem_rides hu3), hclock]
  case ests =>
    have hu3 : s3.units.find r = some u := by rw [hunits, hu]
    rw [foldl_closeRideAtDayEnd_est _ hu3 (by rw [hests, he]), if_pos (mem_rides hu3)]
  case passes => rw [hkept.passes, hexp.passes, hbook0, hp, hminute]; rfl
  case retired => rw [hkept.retired, hexp.retired, hbook0]
  case count => rw [hkept.activeCount, hexp.activeCount, hbook0]
  case accounts => rw [hkept.accounts, hexp.accounts, hbook0]
  case keys => rw [hslots.keys, hkeys2, hexp.rides, hbook0]
  case rides => exact hslots.rides r _ (hfind2 r b (by rw [hexp.rides, hbook0, hb]))
  case serial => rw [hkept.serial, hexp.serial, hbook0]
  case poller => rw [hkept.poller, hexp.only.poller, ← hs0]
  case port =>
    have hport0 : PortKept s s1 := portKept_of_eq (by rw [hexp.only.port, ← hs0])
    exact portKept_trans hport0 hkept.port

/-- Settles O15: the active passes expire, the windows are resolved, so that the late reports and the closing of the
rides find every book at rest, and each ride is closed. -/
theorem closedayCloses : Obligations.ClosedayCloses := by
  intro tag s active hoff hd hwf hsorted hmem
  have hserve : serve tag .closeday s.popInput = (takeCloseday s.popInput, some (.closeday .done)) := by
    rw [serve, serveCloseday, show s.popInput.time.day = .day from hd]
    rfl
  obtain ⟨t, hexec, ht⟩ := exec_answeredAs (c := .closeday tag) rfl hoff
    ((gateServe_pass tag .closeday s.popInput (.inl (day_ne_opening hd))).trans hserve)
    ((moves_takeCloseday s.popInput).waiting_nil (popInput_waiting hoff))
  have hend : DayEnded active s.popInput (dayEnded s.popInput) :=
    dayEnded_dayEnded (s := s.popInput) hwf hsorted hmem
  rw [takeCloseday_eq] at ht
  generalize hx : ({ dayEnded s.popInput with
    time := { (dayEnded s.popInput).time with day := .after } } : State) = x at ht
  have hxt : x.time = { s.time with day := .after, schedule := [], position := 0 } := by
    rw [← hx]
    dsimp only
    rw [hend.time]
    rfl
  have hxbook : x.book = (dayEnded s.popInput).book := by rw [← hx]
  have hj := judged_judgeBook x
  have hrides : (judgeBook x).book.rides = (dayEnded s.popInput).book.rides := by
    rw [← hxbook]
    simp
  refine ⟨t, hexec, ?time, fun r u hu => ?units, fun r u e hu he => ?ests, fun n p hp => ?passes, ?retired, ?count,
    fun k a ha => ?accounts, ?accountKeys, ?keys, fun r b hb => ?rides, ?level, ?serial, ?late, ?poller, ht.replied,
    ?port⟩
  case time => rw [ht.time, hj.time, hxt]
  case units =>
    rw [ht.units, hj.units, ← hx]
    exact hend.units r u hu
  case ests =>
    rw [ht.ests, hj.ests, ← hx]
    exact hend.ests r u e hu he
  case passes =>
    rw [ht.book, hj.passes, hxbook]
    exact hend.passes n p hp
  case retired => rw [ht.book, hj.retired, hxbook, hend.retired]; rfl
  case count => rw [ht.book, hj.activeCount, hxbook, hend.activeCount]; rfl
  case accounts =>
    rw [ht.book, hj.accounts, hxbook, hend.accounts, Table.find_each]
    exact congrArg (Option.map Account.cleared) ha
  case accountKeys =>
    rw [ht.book, hj.accounts, hxbook, hend.accounts, Table.keys_each]
    rfl
  case keys => rw [ht.book, hrides, hend.keys]; rfl
  case rides =>
    obtain ⟨l, hl⟩ := hend.rides r b hb
    exact ⟨{ b.atDayEnd with slotsLevel := l }, by rw [ht.book, hrides, hl], rfl, rfl, rfl, rfl, rfl⟩
  case level => rw [ht.book, judgeBook_bookLevel]
  case serial => rw [ht.book, hj.serial, hxbook, hend.serial]; rfl
  case late =>
    rw [ht.book, judgeBook_late, hxbook, hend.late]
  case poller => rw [ht.poller, hj.poller, ← hx]; exact hend.poller
  case port =>
    have hx0 : PortKept (dayEnded s.popInput) x := portKept_of_eq (by rw [← hx])
    exact portKept_trans (portKept_trans hend.port hx0) (portKept_trans hj.port ht.port)

end Sys2Proof.Machine
end

section
/-! The list events that are due at the end of the opening, for O14: what they leave of the books of CLOSED rides. -/

namespace Sys2Proof.Machine

open Sys2Proof.Safety

/-! ### A list event in a window and in a book -/

/-- What a list event makes of a window without guests, its ride being out of service (R86, R92). -/
def Window.due (e : DayEvent) (w : Window) : Window :=
  match e with
  | .windowStart i => if w.index = i ∧ w.resolved = false then { w with started := true, interrupted := true } else w
  | .graceEnd i => if w.index ≤ i then { w with resolved := true } else w
  | _ => w

/-- What a list event makes of the book of a ride out of service without guests. -/
def RideBook.due (e : DayEvent) (b : RideBook) : RideBook :=
  { b with windows := b.windows.map (Window.due e), gridEnded := b.gridEnded || decide (e = .gridEnd) }

/-- No guest waits for a place, no window holds a place or a pass, and each window is at its index. -/
structure RideBook.Quiet (b : RideBook) : Prop where
  f : b.f = 0
  u : b.u = 0
  flexLevel : b.flexLevel = false
  indexed : ∀ (j : Nat) (w : Window), b.windows[j]? = some w → w.index = j
  empty : ∀ w ∈ b.windows, w.hold = 0 ∧ w.passes = []

/-- A window but for its marks, which are all that a list event writes while it is empty. -/
def Window.fixed (w : Window) : Window := { w with started := false, interrupted := false, resolved := false }

@[simp] theorem Window.due_fixed (e : DayEvent) (w : Window) : (w.due e).fixed = w.fixed := by
  unfold Window.due
  split
  · split <;> rfl
  · split <;> rfl
  · rfl

@[simp] theorem Window.due_index (e : DayEvent) (w : Window) : (w.due e).index = w.index :=
  congrArg (·.index) (w.due_fixed e)

theorem Window.due_due (e : DayEvent) (w : Window) : (w.due e).due e = w.due e := by
  cases e with
  | windowStart i => by_cases h : w.index = i ∧ w.resolved = false <;> simp [Window.due, h]
  | graceEnd i => by_cases h : w.index ≤ i <;> simp [Window.due, h]
  | parkClose => rfl
  | gridEnd => rfl

theorem RideBook.due_due (e : DayEvent) (b : RideBook) : (b.due e).due e = b.due e := by
  simp [RideBook.due, Function.comp_def, Window.due_due]

theorem RideBook.Quiet.of_windows {b c : RideBook} (h : b.Quiet) (hf : c.f = b.f) (hu : c.u = b.u)
    (hl : c.flexLevel = b.flexLevel) (hw : c.windows.map Window.fixed = b.windows.map Window.fixed) : c.Quiet := by
  have hat : ∀ j : Nat, (c.windows[j]?).map Window.fixed = (b.windows[j]?).map Window.fixed := fun j => by
    rw [← List.getElem?_map, ← List.getElem?_map, hw]
  have hfind : ∀ (j : Nat) (w : Window), c.windows[j]? = some w → ∃ v : Window,
      b.windows[j]? = some v ∧ v.fixed = w.fixed := fun j w hj => by
    have hv := hat j
    rw [hj, Option.map_some] at hv
    exact Option.map_eq_some_iff.mp hv.symm
  refine ⟨hf.trans h.f, hu.trans h.u, hl.trans h.flexLevel, fun j w hj => ?_, fun w hmem => ?_⟩
  · obtain ⟨v, hv, heq⟩ := hfind j w hj
    exact (congrArg (·.index) heq).symm.trans (h.indexed j v hv)
  · obtain ⟨j, hj⟩ := List.mem_iff_getElem?.mp hmem
    obtain ⟨v, hv, heq⟩ := hfind j w hj
    obtain ⟨hhold, hpasses⟩ := h.empty v (List.mem_of_getElem? hv)
    have hh := congrArg (·.hold) heq
    have hp := congrArg (·.passes) heq
    exact ⟨hh.symm.trans hhold, hp.symm.trans hpasses⟩

theorem RideBook.Quiet.due {b : RideBook} (h : b.Quiet) (e : DayEvent) : (b.due e).Quiet := by
  refine h.of_windows rfl rfl rfl ?_
  rw [RideBook.due, List.map_map]
  exact List.map_congr_left fun w _ => w.due_fixed e

theorem RideBook.Quiet.slots {b : RideBook} (h : b.Quiet) (l : Bool) : RideBook.Quiet { b with slotsLevel := l } :=
  h.of_windows rfl rfl rfl rfl

/-- A window of a list kept in the order of its indices is changed where its index says. -/
theorem modify_eq_map {ws : List Window} (h : ∀ (j : Nat) (w : Window), ws[j]? = some w → w.index = j) (i : Nat) (f : Window → Window) :
    ws.modify i f = ws.map fun w => if w.index = i then f w else w := by
  refine List.ext_getElem? fun j => ?_
  rw [List.getElem?_modify, List.getElem?_map]
  cases hw : ws[j]? with
  | none => rfl
  | some w => simp [h j w hw, eq_comm]

/-! ### One list event at a ride out of service (R86, R92, R93) -/

/-- The ride is CLOSED and its book is `b`, which is quiet. -/
structure QuietRide (r : Nat) (b : RideBook) (s : State) : Prop where
  closed : ∀ u, s.units.find r = some u → u.state = .closed
  book : s.book.rides.find r = some b
  quiet : b.Quiet

/-- The book of ride `r` becomes `b` up to its SLOTS level, and nothing else is changed but levels. -/
structure BookBecomes (r : Nat) (b : RideBook) (s t : State) : Prop where
  own : ∃ l, t.book.rides.find r = some { b with slotsLevel := l }
  others : OthersKept r s.book.rides t.book.rides
  judged : Judged s t

theorem BookBecomes.rest {r : Nat} {b : RideBook} {s : State} (h : s.book.rides.find r = some b) :
    BookBecomes r b s s := ⟨⟨b.slotsLevel, h⟩, othersKept_refl _ _, .refl s⟩

theorem BookBecomes.quietRide {r : Nat} {a b : RideBook} {s t : State} (h : BookBecomes r b s t)
    (hs : QuietRide r a s) (hb : b.Quiet) : ∃ l, QuietRide r { b with slotsLevel := l } t := by
  obtain ⟨l, hl⟩ := h.own
  exact ⟨l, fun u hu => hs.closed u (by rwa [h.judged.units] at hu), hl, hb.slots l⟩

section

variable {r : Nat} {b : RideBook} {s : State} (h : QuietRide r b s)
include h

theorem QuietRide.rideBook : s.rideBook r = b := rideBook_of_find h.book

theorem QuietRide.slots_modBook (f : RideBook → RideBook) :
    BookBecomes r (f b) s (judgeSlots r (s.modBook r f)) := by
  have hfind : (s.modBook r f).book.rides.find r = some (f b) := by simp [h.book]
  exact ⟨⟨_, judgeSlots_level hfind⟩, othersKept_trans (modBook_others r f s) (judgeSlots_levels r _).others,
    (judged_modBook s r f).trans (judged_judgeSlots r _)⟩

theorem QuietRide.windowStart {u : RideUnit} (hu : s.units.find r = some u) (i : Nat) :
    BookBecomes r (b.due (.windowStart i)) s (windowStart i r s) := by
  have hgrid : (b.gridEnded || decide (DayEvent.windowStart i = .gridEnd)) = b.gridEnded := by simp
  have hidle : (∀ w, b.windows[i]? = some w → w.resolved = true) → b.due (.windowStart i) = b := fun hres => by
    have hmap : b.windows.map (Window.due (.windowStart i)) = b.windows := by
      refine (List.map_congr_left fun w hw => ?_).trans (List.map_id _)
      obtain ⟨j, hj⟩ := List.mem_iff_getElem?.mp hw
      refine if_neg fun hc => ?_
      have hji : j = i := (h.quiet.indexed j w hj).symm.trans hc.1
      rw [hres w (hji ▸ hj)] at hc
      exact Bool.noConfusion hc.2
    rw [RideBook.due, hmap, hgrid]
  cases hw : b.windows[i]? with
  | none =>
    rw [hidle (by rw [hw]; nofun), Machine.windowStart, h.rideBook, hw]
    exact .rest h.book
  | some w =>
    have hfound : (s.rideBook r).windows[i]? = some w := by rw [h.rideBook, hw]
    cases hres : w.resolved with
    | true =>
      rw [windowStart_resolved hfound hu hres, hidle fun v hv => Option.some.inj (hw.symm.trans hv) ▸ hres]
      exact .rest h.book
    | false =>
      have hout : (!u.state.inService) = true := by rw [h.closed u hu]; rfl
      have hdue : b.started i true = b.due (.windowStart i) := by
        have hmap : b.windows.map (Window.due (.windowStart i)) = (b.started i true).windows := by
          refine Eq.trans (List.map_congr_left fun v hv => ?_) (modify_eq_map h.quiet.indexed i _).symm
          obtain ⟨j, hj⟩ := List.mem_iff_getElem?.mp hv
          by_cases hji : v.index = i
          · have heq : v = w := by
              rw [← h.quiet.indexed j v hj, hji] at hj
              exact Option.some.inj (hj.symm.trans hw)
            rw [if_pos hji, Window.due, if_pos ⟨hji, heq ▸ hres⟩, Bool.or_true]
          · rw [if_neg hji, Window.due, if_neg fun hc => hji hc.1]
        rw [RideBook.due, hmap, hgrid]
        rfl
      rw [windowStart_open hfound hu hres, hout, ← hdue]
      exact h.slots_modBook _

theorem QuietRide.endGrid : BookBecomes r (b.due .gridEnd) s (endGrid r s) := by
  have hmap : b.windows.map (Window.due .gridEnd) = b.windows := List.map_id _
  have hdue : b.due .gridEnd = { b with gridEnded := true } := by simp [RideBook.due, hmap]
  rw [hdue]
  exact h.slots_modBook fun b => { b with gridEnded := true }

end

/-- The book with the window at an index resolved, if there is one. -/
def RideBook.resolveAt (j : Nat) (b : RideBook) : RideBook :=
  { b with windows := b.windows.map fun w => if w.index = j then { w with resolved := true } else w }

theorem RideBook.Quiet.resolveAt {b : RideBook} (h : b.Quiet) (j : Nat) : (b.resolveAt j).Quiet := by
  refine h.of_windows rfl rfl rfl ?_
  rw [RideBook.resolveAt, List.map_map]
  refine List.map_congr_left fun w _ => ?_
  rw [Function.comp_apply]
  split <;> rfl

theorem closeCheck_of_closed {r : Nat} {s : State} (h : ∀ u, s.units.find r = some u → u.state = .closed) :
    closeCheck r s = s := by
  have hholds : s.closeHolds r = false := by
    unfold State.closeHolds
    split
    next u e hu he => simp [h u hu]
    next => rfl
  rw [closeCheck, hholds, if_neg Bool.false_ne_true]

/-- The resolution of an empty window of a ride out of service marks it, and does nothing more (R92, R94). -/
theorem QuietRide.resolveWindow {r : Nat} {b : RideBook} {s : State} (h : QuietRide r b s) (j : Nat) :
    BookBecomes r (b.resolveAt j) s (resolveWindow r j s) := by
  have hidle : (∀ w, b.windows[j]? = some w → w.resolved = true) → b.resolveAt j = b := fun hres => by
    have hmap : (b.windows.map fun w => if w.index = j then { w with resolved := true } else w) = b.windows := by
      refine (List.map_congr_left fun w hw => ?_).trans (List.map_id _)
      obtain ⟨k, hk⟩ := List.mem_iff_getElem?.mp hw
      split
      next hkj =>
        have hr := hres w (by rw [← hkj, h.quiet.indexed k w hk, hk])
        rw [← hr]
        rfl
      next => rfl
    rw [RideBook.resolveAt, hmap]
  by_cases hres : ∀ w, b.windows[j]? = some w → w.resolved = true
  · rw [resolveWindow_idle (by rw [h.rideBook]; exact hres), hidle hres]
    exact .rest h.book
  · obtain ⟨w, hw, hopen⟩ : ∃ w, b.windows[j]? = some w ∧ w.resolved = false := by
      simpa only [not_forall, exists_prop, Bool.not_eq_true] using hres
    have hfound : (s.rideBook r).windows[j]? = some w := by rw [h.rideBook, hw]
    have hsettled := settleWindow_settled (i := j) (w := w) (find_of_window hfound)
    obtain ⟨hhold, hpasses⟩ := h.quiet.empty w (List.mem_of_getElem? hw)
    have hkept : disposePasses r w s = s := by
      unfold disposePasses
      rw [hpasses, List.foldl_nil, List.foldl_nil, ite_self]
    have hbook : s.settledBook r j w = b.resolveAt j := by
      have hleft : s.leftOver w = 0 := by
        rw [State.leftOver, hpasses, List.map_nil, List.sum_nil, ite_self]
      rw [State.settledBook, if_neg fun hc => hc.2.1 hpasses, hleft, h.rideBook]
      have hmap : b.windows.modify j Window.settle = (b.resolveAt j).windows := by
        refine (modify_eq_map h.quiet.indexed j _).trans (List.map_congr_left fun v hv => ?_)
        obtain ⟨hv0, hvp⟩ := h.quiet.empty v hv
        split
        · rw [Window.settle, ← hv0, ← hvp]
        · rfl
      rw [RideBook.settled, hmap]
      rfl
    have hclosed : ∀ u, (settleWindow r j w s).units.find r = some u → u.state = .closed := fun u hu =>
      h.closed u (by rwa [hsettled.units] at hu)
    rw [resolveWindow_open hfound hopen, closeCheck_of_closed hclosed]
    refine ⟨⟨_, hbook ▸ hsettled.found⟩, hsettled.others, ?_⟩
    have hboards : (settleWindow r j w s).boards = s.boards := by simp
    have hserial : (settleWindow r j w s).book.serial = s.book.serial := by simp
    have hsame := congrArg (·.book) hkept
    exact ⟨hsettled.time, hsettled.units, hsettled.ests, hsettled.poller, hboards,
      hsettled.passes.trans (congrArg (·.passes) hsame), hsettled.retired.trans (congrArg (·.retired) hsame), hserial,
      hsettled.accounts.trans (congrArg (·.accounts) hsame),
      hsettled.activeCount.trans (congrArg (·.activeCount) hsame), hsettled.port⟩

theorem BookBecomes.trans {r : Nat} {b c : RideBook} {s t u : State} (h : BookBecomes r b s t)
    (g : BookBecomes r c t u) : BookBecomes r c s u :=
  ⟨g.own, othersKept_trans h.others g.others, h.judged.trans g.judged⟩

/-- The book with the windows at some indices resolved. -/
def RideBook.resolveIn (js : List Nat) (b : RideBook) : RideBook :=
  { b with windows := b.windows.map fun w => if w.index ∈ js then { w with resolved := true } else w }

theorem RideBook.resolveIn_cons (j : Nat) (js : List Nat) (b : RideBook) (l : Bool) :
    RideBook.resolveIn js { b.resolveAt j with slotsLevel := l } = { b.resolveIn (j :: js) with slotsLevel := l } := by
  have hmap : (RideBook.resolveIn js { b.resolveAt j with slotsLevel := l }).windows =
      (b.resolveIn (j :: js)).windows := by
    refine (List.map_map ..).trans (List.map_congr_left fun w _ => ?_)
    by_cases hj : w.index = j <;> by_cases hjs : w.index ∈ js <;> simp [hj, hjs]
  exact congrArg (fun ws => { b with windows := ws, slotsLevel := l }) hmap

theorem BookBecomes.slots {r : Nat} {b : RideBook} {l : Bool} {s t : State}
    (h : BookBecomes r { b with slotsLevel := l } s t) : BookBecomes r b s t := by
  obtain ⟨m, hm⟩ := h.own
  exact ⟨⟨m, hm⟩, h.others, h.judged⟩

theorem QuietRide.foldl_resolveWindow {r : Nat} (js : List Nat) {b : RideBook} {s : State} (h : QuietRide r b s) :
    BookBecomes r (b.resolveIn js) s (js.foldl (fun s j => Machine.resolveWindow r j s) s) := by
  induction js generalizing b s with
  | nil =>
    have hnil : b.resolveIn [] = b := by simp [RideBook.resolveIn]
    rw [hnil]
    exact .rest h.book
  | cons j js ih =>
    have hstep := h.resolveWindow j
    obtain ⟨l, hquiet⟩ := hstep.quietRide h (h.quiet.resolveAt j)
    have hrest := hstep.trans (ih hquiet)
    rw [RideBook.resolveIn_cons] at hrest
    exact hrest.slots

theorem QuietRide.graceEnd {r : Nat} {b : RideBook} {s : State} (h : QuietRide r b s) (i : Nat) :
    BookBecomes r (b.due (.graceEnd i)) s (graceEnd i r s) := by
  have hup : BookBecomes r (b.resolveIn (List.range (i + 1))) s (resolveUpTo r i s) := h.foldl_resolveWindow _
  have hdue : b.resolveIn (List.range (i + 1)) = b.due (.graceEnd i) := by
    simp [RideBook.resolveIn, RideBook.due, Window.due, List.mem_range]
  rw [hdue] at hup
  obtain ⟨l, hl⟩ := hup.own
  refine ⟨⟨l, (graceEnd_found hl).trans ?_⟩, othersKept_trans hup.others (graceEnd_levels i r s).others,
    hup.judged.trans (graceEnd_judged i r s)⟩
  have hu : (b.due (.graceEnd i)).u = 0 := h.quiet.u
  have hflex : (b.due (.graceEnd i)).flexLevel = false := h.quiet.flexLevel
  have hlevel : decide (0 < (b.due (.graceEnd i)).u) = (b.due (.graceEnd i)).flexLevel := by rw [hu, hflex]; rfl
  exact congrArg (fun x => some { b.due (.graceEnd i) with flexLevel := x, slotsLevel := l }) hlevel

/-- A list event at a CLOSED ride with a quiet book. -/
theorem QuietRide.bookEvent {r : Nat} {b : RideBook} {s : State} (h : QuietRide r b s) {u : RideUnit}
    (hu : s.units.find r = some u) (e : DayEvent) : BookBecomes r (b.due e) s (bookEvent r s e) := by
  cases e with
  | windowStart i => exact h.windowStart hu i
  | graceEnd i => exact h.graceEnd i
  | gridEnd => exact h.endGrid
  | parkClose =>
    have hdue : b.due .parkClose = b := by
      have hmap : b.windows.map (Window.due .parkClose) = b.windows := List.map_id _
      simp [RideBook.due, hmap]
    rw [hdue]
    exact .rest h.book

end Sys2Proof.Machine
end

section
/-! The end of the opening: O14. -/

namespace Sys2Proof.Machine

open Sys2Proof.Safety

/-! ### The due list events at every ride (R10, R15) -/

/-- Every configured ride is CLOSED and has a quiet book. -/
def QuietPark (s : State) : Prop := ∀ r u, s.units.find r = some u → ∃ b, QuietRide r b s

/-- What the list events of a day make of a quiet book. -/
def RideBook.dueAll (es : List DayEvent) (b : RideBook) : RideBook := es.foldl (fun b e => b.due e) b

theorem RideBook.dueAll_slots (es : List DayEvent) (b : RideBook) (l : Bool) :
    RideBook.dueAll es { b with slotsLevel := l } = { b.dueAll es with slotsLevel := l } := by
  unfold RideBook.dueAll
  induction es generalizing b with
  | nil => rfl
  | cons e es ih => exact ih (b.due e)

theorem RideBook.Quiet.dueAll {b : RideBook} (h : b.Quiet) (es : List DayEvent) : (b.dueAll es).Quiet := by
  unfold RideBook.dueAll
  induction es generalizing b with
  | nil => exact h
  | cons e es ih => exact ih (h.due e)

/-- What the delivery of list events to all rides leaves. -/
structure Delivered (es : List DayEvent) (s t : State) : Prop where
  time : t.time = { s.time with closePassed := s.time.closePassed || es.any fun e => e = .parkClose }
  units : t.units = s.units
  ests : t.ests = s.ests
  poller : t.poller = s.poller
  boards : t.boards = s.boards
  passes : t.book.passes = s.book.passes
  serial : t.book.serial = s.book.serial
  port : PortKept s t
  rides : ∀ r u b, s.units.find r = some u → QuietRide r b s →
    ∃ l, t.book.rides.find r = some { b.dueAll es with slotsLevel := l }

theorem Delivered.refl (s : State) : Delivered [] s s :=
  ⟨by simp, rfl, rfl, rfl, rfl, rfl, rfl, portKept_of_eq rfl, fun r u b _ h => ⟨b.slotsLevel, h.book⟩⟩

theorem Delivered.quietRide {es : List DayEvent} {s t : State} (h : Delivered es s t) {r : Nat} {u : RideUnit}
    {b : RideBook} (hu : s.units.find r = some u) (hb : QuietRide r b s) :
    ∃ l, QuietRide r { b.dueAll es with slotsLevel := l } t := by
  obtain ⟨l, hl⟩ := h.rides r u b hu hb
  exact ⟨l, fun v hv => hb.closed v (by rwa [h.units] at hv), hl, (hb.quiet.dueAll es).slots l⟩

theorem Delivered.quietPark {es : List DayEvent} {s t : State} (h : Delivered es s t) (hs : QuietPark s) :
    QuietPark t := by
  intro r u hu
  rw [h.units] at hu
  obtain ⟨b, hb⟩ := hs r u hu
  obtain ⟨l, hl⟩ := h.quietRide hu hb
  exact ⟨_, hl⟩

theorem Delivered.trans {es fs : List DayEvent} {s t v : State} (h : Delivered es s t) (g : Delivered fs t v) :
    Delivered (es ++ fs) s v := by
  refine ⟨?_, g.units.trans h.units, g.ests.trans h.ests, g.poller.trans h.poller, g.boards.trans h.boards,
    g.passes.trans h.passes, g.serial.trans h.serial, portKept_trans h.port g.port, fun r u b hu hb => ?_⟩
  · rw [g.time, h.time, List.any_append, ← Bool.or_assoc]
  · obtain ⟨l, hl⟩ := h.quietRide hu hb
    obtain ⟨m, hm⟩ := g.rides r u _ (by rw [h.units, hu]) hl
    have happend : b.dueAll (es ++ fs) = (b.dueAll es).dueAll fs := List.foldl_append
    rw [RideBook.dueAll_slots] at hm
    rw [happend]
    exact ⟨m, hm⟩

theorem BookBecomes.quietPark {r : Nat} {a b : RideBook} {s t : State} (h : BookBecomes r b s t)
    (ha : QuietRide r a s) (hb : b.Quiet) (hs : QuietPark s) : QuietPark t := by
  intro k u hu
  rw [h.judged.units] at hu
  by_cases hk : k = r
  · subst hk
    obtain ⟨l, hl⟩ := h.quietRide ha hb
    exact ⟨_, hl⟩
  · obtain ⟨c, hc⟩ := hs k u hu
    exact ⟨c, fun v hv => hc.closed v (by rwa [h.judged.units] at hv), (h.others k hk).trans hc.book, hc.quiet⟩

/-- A list event is taken for the configured rides in turn; each has its own part, whatever the order. -/
theorem foldl_bookEvent (e : DayEvent) (rs : List Nat) {s : State} (hs : QuietPark s)
    (hrs : ∀ r ∈ rs, ∃ u, s.units.find r = some u) :
    Judged s (rs.foldl (fun s r => bookEvent r s e) s) ∧
    ∀ k b, QuietRide k b s → ∃ l, (rs.foldl (fun s r => bookEvent r s e) s).book.rides.find k =
      some { (if k ∈ rs then b.due e else b) with slotsLevel := l } := by
  induction rs generalizing s with
  | nil => exact ⟨.refl s, fun k b hb => ⟨b.slotsLevel, by simp [hb.book]⟩⟩
  | cons r rs ih =>
    obtain ⟨u, hu⟩ := hrs r List.mem_cons_self
    obtain ⟨a, ha⟩ := hs r u hu
    have hstep := ha.bookEvent hu e
    have hpark := hstep.quietPark ha (ha.quiet.due e) hs
    obtain ⟨hjudged, hrides⟩ := ih hpark fun k hk => by
      rw [hstep.judged.units]
      exact hrs k (List.mem_cons_of_mem r hk)
    refine ⟨hstep.judged.trans hjudged, fun k b hb => ?_⟩
    by_cases hk : k = r
    · subst hk
      obtain rfl := Option.some.inj (ha.book.symm.trans hb.book)
      obtain ⟨l, hl⟩ := hstep.quietRide ha (ha.quiet.due e)
      obtain ⟨m, hm⟩ := hrides k _ hl
      have htwice : RideBook.due e { a.due e with slotsLevel := l } = { a.due e with slotsLevel := l } :=
        congrArg (fun b : RideBook => { b with slotsLevel := l }) (a.due_due e)
      rw [htwice, ite_self] at hm
      exact ⟨m, by rw [if_pos List.mem_cons_self]; exact hm⟩
    · have hkeep : QuietRide k b (bookEvent r s e) :=
        ⟨fun v hv => hb.closed v (by rwa [hstep.judged.units] at hv), (hstep.others k hk).trans hb.book, hb.quiet⟩
      obtain ⟨m, hm⟩ := hrides k b hkeep
      refine ⟨m, hm.trans ?_⟩
      simp only [List.mem_cons, hk, false_or]

theorem parkCloseEvent_of_closed {r : Nat} {s : State} (h : ∀ u, s.units.find r = some u → u.state = .closed) :
    parkCloseEvent r s = s := by
  unfold parkCloseEvent
  split
  · rfl
  next u hu => simp [h u hu, RideState.isHeld]

/-- The park close of CLOSED rides only sets CLOSE_PASSED (R14, R25). -/
theorem deliverDue_parkClose {s : State} (hs : QuietPark s) : deliverDue s .parkClose = setClosePassed s := by
  have hclosed : ∀ r u, (setClosePassed s).units.find r = some u → u.state = .closed := fun r u hu => by
    obtain ⟨b, hb⟩ := hs r u hu
    exact hb.closed u hu
  have hfold : ∀ rs : List Nat, rs.foldl (fun s r => parkCloseEvent r s) (setClosePassed s) = setClosePassed s := by
    intro rs
    induction rs with
    | nil => rfl
    | cons r rs ih => rw [List.foldl_cons, parkCloseEvent_of_closed (hclosed r), ih]
  exact hfold _

theorem deliverDue_delivered {s : State} (hs : QuietPark s) (e : DayEvent) : Delivered [e] s (deliverDue s e) := by
  by_cases he : e = .parkClose
  · subst he
    rw [deliverDue_parkClose hs]
    refine ⟨?_, rfl, rfl, rfl, rfl, rfl, rfl, portKept_of_eq rfl, fun r u b _ hb => ⟨b.slotsLevel, ?_⟩⟩
    · simp [setClosePassed]
    · have hdue : b.due .parkClose = b := by
        have hmap : b.windows.map (Window.due .parkClose) = b.windows := List.map_id _
        simp [RideBook.due, hmap]
      have hall : b.dueAll [.parkClose] = b := hdue
      rw [hall]
      exact hb.book
  · have hfold : deliverDue s e = s.rides.foldl (fun s r => bookEvent r s e) s := by
      cases e with
      | parkClose => exact absurd rfl he
      | _ => rfl
    obtain ⟨hj, hrides⟩ := foldl_bookEvent e s.rides hs fun r hr =>
      Option.isSome_iff_exists.mp ((mem_keys_iff s.units r).mp hr)
    rw [hfold]
    refine ⟨?_, hj.units, hj.ests, hj.poller, hj.boards, hj.passes, hj.serial, hj.port, fun r u b hu hb => ?_⟩
    · rw [hj.time]
      simp [he]
    · obtain ⟨l, hl⟩ := hrides r b hb
      rw [if_pos (mem_rides hu)] at hl
      exact ⟨l, hl⟩

theorem foldl_deliverDue (es : List DayEvent) {s : State} (hs : QuietPark s) :
    Delivered es s (es.foldl deliverDue s) := by
  induction es generalizing s with
  | nil => exact .refl s
  | cons e es ih =>
    have hstep := deliverDue_delivered hs e
    exact hstep.trans (ih (hstep.quietPark hs))

/-! ### What the due events leave of a window -/

/-- What the list events of a day make of an empty window. -/
def Window.dueAll (es : List DayEvent) (w : Window) : Window := es.foldl (fun w e => w.due e) w

theorem RideBook.dueAll_windows (es : List DayEvent) (b : RideBook) :
    (b.dueAll es).windows = b.windows.map (Window.dueAll es) := by
  unfold RideBook.dueAll
  induction es generalizing b with
  | nil => exact (List.map_id _).symm
  | cons e es ih => exact (ih (b.due e)).trans (List.map_map ..)

theorem RideBook.dueAll_gridEnded (es : List DayEvent) (b : RideBook) :
    (b.dueAll es).gridEnded = (b.gridEnded || es.any fun e => e = .gridEnd) := by
  unfold RideBook.dueAll
  induction es generalizing b with
  | nil => simp
  | cons e es ih =>
    rw [List.foldl_cons, ih, List.any_cons, ← Bool.or_assoc]
    rfl

@[simp] theorem Window.dueAll_fixed (es : List DayEvent) (w : Window) : (w.dueAll es).fixed = w.fixed := by
  unfold Window.dueAll
  induction es generalizing w with
  | nil => rfl
  | cons e es ih => rw [List.foldl_cons, ih, Window.due_fixed]

/-- A window is resolved by the grace end of its index or of a later one (R93). -/
theorem Window.dueAll_resolved (es : List DayEvent) (w : Window) :
    (w.dueAll es).resolved = true ↔ w.resolved = true ∨ ∃ j, w.index ≤ j ∧ DayEvent.graceEnd j ∈ es := by
  unfold Window.dueAll
  induction es generalizing w with
  | nil => simp
  | cons e es ih =>
    have hone : (w.due e).resolved = true ↔ w.resolved = true ∨ ∃ j, w.index ≤ j ∧ e = .graceEnd j := by
      cases e with
      | windowStart i => by_cases h : w.index = i ∧ w.resolved = false <;> simp [Window.due, h]
      | graceEnd i => by_cases h : w.index ≤ i <;> simp [Window.due, h]
      | parkClose => simp [Window.due]
      | gridEnd => simp [Window.due]
    rw [List.foldl_cons, ih, hone, w.due_index, or_assoc]
    refine or_congr_right ?_
    simp only [List.mem_cons, eq_comm (a := e), and_or_left, exists_or]

/-- Where no window's start comes after its resolution, a window is STARTED and INTERRUPTED by its start. -/
theorem Window.dueAll_started (es : List DayEvent) (w : Window)
    (hopen : w.resolved = true → DayEvent.windowStart w.index ∉ es)
    (horder : es.Pairwise fun x y => ∀ j, w.index ≤ j → x = .graceEnd j → y ≠ .windowStart w.index) :
    ((w.dueAll es).started = true ↔ w.started = true ∨ DayEvent.windowStart w.index ∈ es) ∧
    ((w.dueAll es).interrupted = true ↔ w.interrupted = true ∨ DayEvent.windowStart w.index ∈ es) := by
  unfold Window.dueAll
  induction es generalizing w with
  | nil => simp
  | cons e es ih =>
    obtain ⟨hfirst, hrest⟩ := List.pairwise_cons.mp horder
    have hindex := w.due_index e
    have hnext := ih (w.due e) ?_ (by rwa [hindex])
    case refine_1 =>
      intro hres hmem
      rw [hindex] at hmem
      rcases (Window.dueAll_resolved [e] w).mp hres with h | ⟨j, hj, he⟩
      · exact hopen h (List.mem_cons_of_mem e hmem)
      · exact hfirst _ hmem j hj (List.mem_singleton.mp he).symm rfl
    rw [hindex] at hnext
    rw [List.foldl_cons, hnext.1, hnext.2]
    by_cases he : e = .windowStart w.index
    · have hres : w.resolved = false := by
        rw [Bool.eq_false_iff]
        exact fun h => hopen h (he ▸ List.mem_cons_self)
      subst he
      simp [Window.due, hres]
    · have hkeep : (w.due e).started = w.started ∧ (w.due e).interrupted = w.interrupted := by
        cases e with
        | windowStart i =>
          rw [Window.due, if_neg fun hc => he (congrArg DayEvent.windowStart hc.1.symm)]
          exact ⟨rfl, rfl⟩
        | graceEnd i => by_cases h : w.index ≤ i <;> simp [Window.due, h]
        | parkClose => exact ⟨rfl, rfl⟩
        | gridEnd => exact ⟨rfl, rfl⟩
      rw [hkeep.1, hkeep.2, List.mem_cons, eq_comm (a := DayEvent.windowStart w.index)]
      simp only [he, false_or, and_self]

/-! ### The events due by a minute of the schedule (R14) -/

/-- The list events due by minute `m`. -/
def dueBy (m : Nat) (schedule : List Scheduled) : List DayEvent :=
  (schedule.takeWhile fun e => e.minute ≤ m).map (·.event)

theorem mem_takeWhile_minute {schedule : List Scheduled} {m : Nat}
    (h : schedule.Pairwise fun x y => x.minute ≤ y.minute) (x : Scheduled) :
    x ∈ schedule.takeWhile (fun e => decide (e.minute ≤ m)) ↔ x ∈ schedule ∧ x.minute ≤ m := by
  induction schedule with
  | nil => simp
  | cons y schedule ih =>
    obtain ⟨hfirst, hrest⟩ := List.pairwise_cons.mp h
    by_cases hy : y.minute ≤ m
    · rw [List.takeWhile_cons_of_pos (by simpa using hy), List.mem_cons, List.mem_cons, ih hrest]
      constructor
      · rintro (rfl | ⟨hx, hm⟩)
        · exact ⟨.inl rfl, hy⟩
        · exact ⟨.inr hx, hm⟩
      · rintro ⟨rfl | hx, hm⟩
        · exact .inl rfl
        · exact .inr ⟨hx, hm⟩
    · rw [List.takeWhile_cons_of_neg (by simpa using hy)]
      refine ⟨fun hx => absurd hx List.not_mem_nil, ?_⟩
      rintro ⟨hx, hm⟩
      rcases List.mem_cons.mp hx with rfl | hx
      · exact absurd hm hy
      · exact absurd ((hfirst x hx).trans hm) hy

section

variable {plan : Plan} {gLate : Nat} {schedule : List Scheduled} (h : IsSchedule plan gLate schedule)
include h

theorem schedule_minutes : schedule.Pairwise fun x y => x.minute ≤ y.minute :=
  h.order.imp fun hxy => hxy.elim Nat.le_of_lt fun heq => Nat.le_of_eq heq.1

theorem mem_dueBy (m : Nat) (e : DayEvent) :
    e ∈ dueBy m schedule ↔ ∃ x ∈ planEvents plan gLate, x.minute ≤ m ∧ x.event = e := by
  unfold dueBy
  simp only [List.mem_map, mem_takeWhile_minute (schedule_minutes h), h.events.mem_iff, and_assoc]
  exact Iff.rfl

theorem windowStart_mem_dueBy (m i : Nat) :
    DayEvent.windowStart i ∈ dueBy m schedule ↔ i < plan.n ∧ plan.openMin + plan.len * i ≤ m := by
  rw [mem_dueBy h]
  constructor
  · rintro ⟨x, hx, hm, he⟩
    obtain ⟨hi, ⟨-, hmin⟩ | ⟨hgrace, -⟩⟩ := mem_planEvents hx (i := i) (by rw [he]; rfl)
    · exact ⟨hi, hmin ▸ hm⟩
    · rw [he] at hgrace
      cases hgrace
  · rintro ⟨hi, hm⟩
    refine ⟨{ minute := plan.openMin + plan.len * i, event := .windowStart i }, ?_, hm, rfl⟩
    simp [planEvents, hi]

theorem graceEnd_mem_dueBy (m i : Nat) : DayEvent.graceEnd i ∈ dueBy m schedule ↔
    i < plan.n ∧ plan.openMin + plan.len * (i + 1) + gLate + 1 ≤ m := by
  rw [mem_dueBy h]
  constructor
  · rintro ⟨x, hx, hm, he⟩
    obtain ⟨hi, ⟨hstart, -⟩ | ⟨-, hmin⟩⟩ := mem_planEvents hx (i := i) (by rw [he]; rfl)
    · rw [he] at hstart
      cases hstart
    · exact ⟨hi, hmin ▸ hm⟩
  · rintro ⟨hi, hm⟩
    refine ⟨{ minute := plan.openMin + plan.len * (i + 1) + gLate + 1, event := .graceEnd i }, ?_, hm, rfl⟩
    simp [planEvents, hi]

/-- No grace end of a window or of a later one comes before the window's start. -/
theorem dueBy_start_first (m i : Nat) : (dueBy m schedule).Pairwise fun x y =>
    ∀ j, i ≤ j → x = .graceEnd j → y ≠ .windowStart i := by
  refine List.pairwise_map.mpr ((((schedule_minutes h).sublist (List.takeWhile_sublist _)).imp_of_mem ?_))
  intro x y hx hy hxy j hij hex hey
  have hx := h.events.mem_iff.mp ((List.takeWhile_sublist _).subset hx)
  have hy := h.events.mem_iff.mp ((List.takeWhile_sublist _).subset hy)
  obtain ⟨-, ⟨he, -⟩ | ⟨-, hmx⟩⟩ := mem_planEvents hx (i := j) (by rw [hex]; rfl)
  · rw [hex] at he
    cases he
  obtain ⟨-, ⟨-, hmy⟩ | ⟨he, -⟩⟩ := mem_planEvents hy (i := i) (by rw [hey]; rfl)
  · have hlen : plan.len * i ≤ plan.len * (j + 1) := Nat.mul_le_mul_left _ (by omega)
    omega
  · rw [hey] at he
    cases he

/-- The windows as the due events of the plan leave them: STARTED and INTERRUPTED from their start, RESOLVED past their
grace end. -/
theorem window_dueBy (m : Nat) {c p i : Nat} (hi : i < plan.n) {w : Window}
    (hw : w = (Window.build plan gLate c p i).dueAll (dueBy m schedule)) :
    (w.started = true ↔ w.startMin ≤ m) ∧ (w.interrupted = true ↔ w.startMin ≤ m) ∧
      (w.resolved = true ↔ w.graceEnd < m) := by
  have hfixed : w.fixed = (Window.build plan gLate c p i).fixed := by rw [hw, Window.dueAll_fixed]
  have hstart : w.startMin = plan.openMin + plan.len * i := congrArg (·.startMin) hfixed
  have hgrace : w.graceEnd = plan.openMin + plan.len * i + plan.len + gLate := congrArg (·.graceEnd) hfixed
  obtain ⟨hstarted, hinterrupted⟩ := Window.dueAll_started (dueBy m schedule) (Window.build plan gLate c p i)
    (fun hres => Bool.noConfusion hres) (dueBy_start_first h m i)
  have hresolved := Window.dueAll_resolved (dueBy m schedule) (Window.build plan gLate c p i)
  rw [← hw] at hstarted hinterrupted hresolved
  have hin : DayEvent.windowStart (Window.build plan gLate c p i).index ∈ dueBy m schedule ↔ w.startMin ≤ m := by
    rw [hstart]
    exact (windowStart_mem_dueBy h m i).trans (and_iff_right hi)
  have hfresh : ∀ b : Bool, b = false → ∀ P : Prop, (b = true ∨ P) ↔ P := by
    rintro b rfl P
    simp
  refine ⟨hstarted.trans ((hfresh _ rfl _).trans hin), hinterrupted.trans ((hfresh _ rfl _).trans hin),
    hresolved.trans ((hfresh _ rfl _).trans ?_)⟩
  rw [hgrace]
  constructor
  · rintro ⟨j, hj, hmem⟩
    have hj : i ≤ j := hj
    have hm := ((graceEnd_mem_dueBy h m j).mp hmem).2
    have hlen : plan.len * (i + 1) ≤ plan.len * (j + 1) := Nat.mul_le_mul_left _ (by omega)
    have hsucc : plan.len * (i + 1) = plan.len * i + plan.len := Nat.mul_succ plan.len i
    omega
  · intro hm
    refine ⟨i, Nat.le_refl i, (graceEnd_mem_dueBy h m i).mpr ⟨hi, ?_⟩⟩
    have hsucc : plan.len * (i + 1) = plan.len * i + plan.len := Nat.mul_succ plan.len i
    omega

end

/-! ### The park opened (R10, R27, R83, R84, R85) -/

/-- The book of a ride at the end of the opening, before any list event. -/
def openedBook (plan : Plan) (gLate : Nat) (u : RideUnit) : RideBook := { windows := buildWindows plan gLate u }

theorem openedBook_quiet (plan : Plan) (gLate : Nat) (u : RideUnit) : (openedBook plan gLate u).Quiet := by
  refine ⟨rfl, rfl, rfl, fun j w hw => ?_, fun w hw => ?_⟩
  · obtain ⟨i, hi, rfl⟩ := Option.map_eq_some_iff.mp ((List.getElem?_map ..).symm.trans hw)
    obtain ⟨hlt, hij⟩ := List.getElem?_eq_some_iff.mp hi
    exact hij.symm.trans (List.getElem_range hlt)
  · obtain ⟨i, -, rfl⟩ := List.mem_map.mp hw
    exact ⟨rfl, rfl⟩

section

variable {plan : Plan} {s : State} {r : Nat} {u : RideUnit} (hu : s.units.find r = some u)
include hu

theorem openedState_unit : (openedState plan s).units.find r = some (u.opened s.clockNow) := by
  simp [openedState, hu]

theorem openedState_est {e : Estimator} (he : s.ests.find r = some e) :
    (openedState plan s).ests.find r = some (e.opened u.config.c u.config.p) := by
  simp [openedState, openEstimators, hu, he]

theorem openedState_quietRide (hclosed : ∀ x ∈ s.units, x.2.state = .closed) :
    QuietRide r (openedBook plan s.time.params.gLate u) (openedState plan s) := by
  refine ⟨fun v hv => ?_, ?_, openedBook_quiet plan _ u⟩
  · rw [openedState_unit hu] at hv
    obtain rfl := Option.some.inj hv
    exact hclosed _ (Table.mem_of_find _ _ _ hu)
  · simp [openedState, openedBook, hu]

end

theorem openedState_quietPark {s : State} (plan : Plan) (hclosed : ∀ x ∈ s.units, x.2.state = .closed) :
    QuietPark (openedState plan s) := by
  intro r v hv
  have hkey : r ∈ (openedState plan s).units.keys := (mem_keys_iff _ _).mpr (by rw [hv]; rfl)
  have hkeys : (openedState plan s).units.keys = s.units.keys := Table.keys_each _ _
  rw [hkeys, mem_keys_iff] at hkey
  obtain ⟨u, hu⟩ := Option.isSome_iff_exists.mp hkey
  exact ⟨_, openedState_quietRide hu hclosed⟩

/-- The opened state, its delivery position past the due events. -/
def openedPast (plan : Plan) (s : State) : State :=
  { openedState plan s with time := { (openedState plan s).time with
    position := (s.time.schedule.takeWhile fun e => e.minute ≤ s.minute).length } }

theorem deliverDueEvents_eq (plan : Plan) (s : State) : deliverDueEvents (openedState plan s) =
    (dueBy s.minute s.time.schedule).foldl deliverDue (openedPast plan s) := by
  have hlength : 0 + (s.time.schedule.takeWhile fun e => decide (e.minute ≤ s.minute)).length =
      (s.time.schedule.takeWhile fun e => decide (e.minute ≤ s.minute)).length := Nat.zero_add _
  rw [openedPast, ← hlength]
  rfl

theorem deliverDueEvents_delivered {plan : Plan} {s : State} (hclosed : ∀ x ∈ s.units, x.2.state = .closed) :
    Delivered (dueBy s.minute s.time.schedule) (openedPast plan s) (deliverDueEvents (openedState plan s)) := by
  rw [deliverDueEvents_eq]
  refine foldl_deliverDue _ fun r u hu => ?_
  obtain ⟨b, hb⟩ := openedState_quietPark plan hclosed r u hu
  exact ⟨b, hb.closed, hb.book, hb.quiet⟩

theorem any_dueBy (m : Nat) (schedule : List Scheduled) (x : DayEvent) :
    ((dueBy m schedule).any fun e => e = x) = (schedule.takeWhile fun e => e.minute ≤ m).any fun e => e.event = x :=
  List.any_map

/-- The end of the opening, in the order of its parts: the state opened, the due events, the reply. -/
theorem endOpening_answered {s : State} {plan : Plan} {tag : Nat} {o : Code} (hd : s.time.day = .opening)
    (he : s.time.erase = some 2) (hplan : s.time.plan = some plan) (hpending : s.time.pendingOpen = some (tag, o))
    (hw : s.port.waiting = []) (hclosed : ∀ x ∈ s.units, x.2.state = .closed) {x : State}
    (hx : x = deliverDueEvents (openedState plan s)) :
    AnsweredAs (.reply tag 2 (.openday o (some plan))) { x with time := { x.time with pendingOpen := none } }
      (endOpening s) := by
  have hover : s.eraseOver = true := by
    simp [State.eraseOver, hd, he]
    decide
  have hdel := deliverDueEvents_delivered (plan := plan) hclosed
  rw [← hx] at hdel
  have hpend : x.time.pendingOpen = some (tag, o) := by rw [hdel.time]; exact hpending
  have hxplan : x.time.plan = some plan := by rw [hdel.time]; exact hplan
  have hwait : x.port.waiting = [] := by
    rw [hx]
    exact Moves.waiting_nil ((moves_openedState plan s).trans (moves_deliverDueEvents _ rfl)) hw
  have heq : endOpening s = answerOpening x := by
    simp only [endOpening, hplan, hover, if_true, hx]
  rw [heq, answerOpening, hpend, hxplan]
  exact answeredAs_enterReply _ _ hwait

/-- Settles O14: the rides, estimators and windows are opened, the due list events find every ride CLOSED and its book
quiet, and the schedule says which windows they have started and resolved. -/
theorem openingEnds : Obligations.OpeningEnds := by
  intro s plan tag o hd he hplan hpending hw hclosed
  have hdel := deliverDueEvents_delivered (plan := plan) hclosed
  have ht := endOpening_answered hd he hplan hpending hw hclosed rfl
  generalize deliverDueEvents (openedState plan s) = x at hdel ht
  have htime : (endOpening s).time = { x.time with pendingOpen := none } := ht.time
  rw [hdel.time] at htime
  have hbook : ∀ r u, s.units.find r = some u → ∃ l, (endOpening s).rideBook r =
      { (openedBook plan s.time.params.gLate u).dueAll (dueBy s.minute s.time.schedule) with slotsLevel := l } := by
    intro r u hu
    have hquiet := openedState_quietRide (plan := plan) hu hclosed
    obtain ⟨l, hl⟩ := hdel.rides r _ _ (openedState_unit (plan := plan) hu)
      ⟨hquiet.closed, hquiet.book, hquiet.quiet⟩
    exact ⟨l, (ht.rideBook r).trans (rideBook_of_find hl)⟩
  have hwindows : ∀ r u, s.units.find r = some u → ((endOpening s).rideBook r).windows =
      (buildWindows plan s.time.params.gLate u).map (Window.dueAll (dueBy s.minute s.time.schedule)) := by
    intro r u hu
    obtain ⟨l, hl⟩ := hbook r u hu
    rw [hl]
    exact RideBook.dueAll_windows _ _
  refine ⟨_, rfl, by rw [htime]; rfl, by rw [htime]; rfl, by rw [htime], by rw [htime]; rfl,
    by rw [htime]; exact hplan, by rw [htime]; rfl, by rw [htime]; rfl, by rw [htime]; rfl, ?closePassed,
    ht.replied, fun r u hu => ?units, fun r u e hu he => ?ests, fun r u hu => ?gridEnded, by rw [htime]; rfl,
    fun hsched r u hu w hmem => ?marks, fun r u hu => ?plan, fun r u hu w hmem => ?fresh, ?serial, ?passes, ?poller,
    ?boards, ?port⟩
  case closePassed =>
    rw [htime, any_dueBy]
    exact Bool.false_or _
  case units =>
    rw [ht.units]
    exact (congrArg (Table.find · r) hdel.units).trans (openedState_unit (plan := plan) hu)
  case ests =>
    rw [ht.ests]
    exact (congrArg (Table.find · r) hdel.ests).trans (openedState_est (plan := plan) hu he)
  case gridEnded =>
    obtain ⟨l, hl⟩ := hbook r u hu
    rw [hl, ← any_dueBy]
    exact (RideBook.dueAll_gridEnded _ _).trans (Bool.false_or _)
  case marks =>
    rw [hwindows r u hu, buildWindows, List.map_map] at hmem
    obtain ⟨i, hi, hwi⟩ := List.mem_map.mp hmem
    exact window_dueBy hsched s.minute (List.mem_range.mp hi) hwi.symm
  case plan =>
    obtain ⟨l, hl⟩ := hbook r u hu
    have hquiet := (openedBook_quiet plan s.time.params.gLate u).dueAll (dueBy s.minute s.time.schedule)
    refine ⟨by rw [hl]; exact hquiet.f, by rw [hl]; exact hquiet.u, ?_⟩
    rw [hwindows r u hu, buildWindows, List.map_map, List.map_map]
    refine List.map_congr_left fun i _ => ?_
    exact congrArg (fun x : Window => (x.index, x.startMin, x.endMin, x.graceEnd)) (Window.dueAll_fixed _ _)
  case fresh =>
    rw [hwindows r u hu, buildWindows, List.map_map] at hmem
    obtain ⟨i, -, rfl⟩ := List.mem_map.mp hmem
    have hfixed := Window.dueAll_fixed (dueBy s.minute s.time.schedule)
      (Window.build plan s.time.params.gLate u.config.c u.config.p i)
    exact ⟨congrArg (·.cap) hfixed, congrArg (·.issued) hfixed, congrArg (·.hold) hfixed, congrArg (·.passes) hfixed⟩
  case serial => rw [ht.book]; exact hdel.serial
  case passes => rw [ht.book]; exact hdel.passes
  case poller => rw [ht.poller]; exact hdel.poller
  case boards => rw [ht.boards]; exact hdel.boards
  case port =>
    have hstart : PortKept s (openedPast plan s) := portKept_of_eq rfl
    have hpend : PortKept x { x with time := { x.time with pendingOpen := none } } := portKept_of_eq rfl
    exact portKept_trans (portKept_trans hstart hdel.port) (portKept_trans hpend ht.port)

end Sys2Proof.Machine
end
